-- ==== Sys2Proof/Word.lean ====
section
/-! DEFINITION. The value types of the block: bytes, scan words, the two hands, pairs of per-hand values
(spec/00_scope.md section 6, spec/10_state.md). All values are unsigned; bit 0 is the least significant bit. -/

namespace Sys2Proof

/-- An 8-bit value: a bus byte, a host-port byte, a colour channel. -/
abbrev Byte := BitVec 8

/-- A KeyswitchScan: 32 keyswitch states of one hand (10_state.md R11). -/
abbrev Scan := BitVec 32

/-- A keyboard half; the spec's `h`, 0 = left, 1 = right (00_scope.md glossary). -/
inductive Hand where
  | left
  | right
deriving DecidableEq, Repr, Inhabited

/-- One value per hand: the spec's `x[h]`, h in 0, 1 (10_state.md). -/
structure Pair (α : Type) where
  left : α
  right : α
deriving DecidableEq, Repr, Inhabited

/-- The element of hand `h`: the read `x[h]`. -/
def Pair.get {α : Type} (p : Pair α) : Hand → α
  | .left => p.left
  | .right => p.right

/-- The pair after `x[h] <- v`. -/
def Pair.set {α : Type} (p : Pair α) (h : Hand) (v : α) : Pair α :=
  match h with
  | .left => ⟨v, p.right⟩
  | .right => ⟨p.left, v⟩

/-- The same value on both hands. -/
def Pair.both {α : Type} (v : α) : Pair α := ⟨v, v⟩

/-- A Color, an RGB triple with 8-bit channels (10_state.md R17). -/
structure Color where
  r : Byte
  g : Byte
  b : Byte
deriving DecidableEq, Repr, Inhabited

/-- The black Color (10_state.md R17). -/
def Color.black : Color := ⟨0, 0, 0⟩

/-- The three bytes of a colour on the wire, in wire order blue, green, red (20_memory.md R48). -/
structure Bgr where
  b : Byte
  g : Byte
  r : Byte
deriving DecidableEq, Repr, Inhabited

end Sys2Proof
end

