-- ==== Sys2Proof/Config.lean ====
section
/-! DEFINITION. The configuration record of spec/00_scope.md R3 with its defaults, and the values the spec leaves
open: opaque constants without a body, so that a claim about them holds whatever they are. -/

namespace Sys2Proof

/-- `COLOR_MODE` (00_scope.md R3): three 8-bit channels, or packed 5 bits per channel. -/
inductive ColorMode where
  | rgb888
  | rgb555
deriving DecidableEq, Repr, Inhabited

/-- The configuration record of 00_scope.md R3; the fixed counts of that table (2 hands, 32 keys and LEDs a hand,
4 banks of 8) are in the types. It stands in `State` as a field no operation writes (assumption log 1). -/
structure Config where
  /-- Register-select code of the firmware-version register. -/
  cmdVersion : Byte
  /-- Command code of KEYSCAN_INTERVAL, and select code of its register. -/
  cmdKeyscanInterval : Byte
  /-- Command code of LED_SET_ALL. -/
  cmdLedSetAll : Byte
  /-- Command code of LED_SET_ONE. -/
  cmdLedSetOne : Byte
  /-- Command code of LED_SPI_FREQUENCY, and select code of its register. -/
  cmdLedSpiFrequency : Byte
  /-- Command code of bank 0 of LED_BANK. -/
  cmdLedBankBase : Byte
  /-- The key-data reply tag. -/
  replyKeydata : Byte
  /-- Device base address on the two-wire bus. -/
  busAddrBase : BitVec 7
  /-- Value OR'd into the base address for hand 1. -/
  rightSel : BitVec 7
  /-- The 64-entry key-to-LED table. -/
  keyLedMap : Vector (BitVec 6) 64
  /-- The gamma lookup table. -/
  gamma : Vector Byte 256
  /-- The colour representation of the frame buffer. -/
  colorMode : ColorMode
  /-- Least number of milliseconds between two fired flush steps. -/
  ledFlushIntervalMs : Nat
  /-- Width of the millisecond input and of `last_flush`. -/
  timerBits : Nat
deriving DecidableEq, Repr

/-- `GAMMA_DEFAULT[i] = floor((i*i + 127) / 255)` (42_led_sync.md R176). -/
def Config.gammaDefault : Vector Byte 256 :=
  ⟨((List.range 256).map fun i => BitVec.ofNat 8 ((i * i + 127) / 255)).toArray, by simp⟩

/-- `KEY_LED_MAP[k] = k`. DESIGN CHOICE, unsafe: the spec gives the table no default and uses the identity in its test
vectors only (20_memory.md R42, assumption log 1). -/
def Config.identityMap : Vector (BitVec 6) 64 :=
  ⟨((List.range 64).map fun k => BitVec.ofNat 6 k).toArray, by simp⟩

/-- The default configuration: the `default` column of 00_scope.md R3. The numeric codes, the tag and the base address
are PRESUMED, unsafe (the spec takes them from general knowledge of the keyboard family, 93 G1; assumption log 2). -/
def Config.default : Config where
  cmdVersion := 0x01
  cmdKeyscanInterval := 0x02
  cmdLedSetAll := 0x03
  cmdLedSetOne := 0x04
  cmdLedSpiFrequency := 0x06
  cmdLedBankBase := 0x80
  replyKeydata := 0x01
  busAddrBase := 0x58
  rightSel := 3
  keyLedMap := Config.identityMap
  gamma := Config.gammaDefault
  colorMode := .rgb888
  ledFlushIntervalMs := 32
  timerBits := 16

/-! ## Open parameters no rule reads (00_scope.md R3; assumption log 17) -/

/-- `BUS_CLOCK_DIVISOR`: open; no rule depends on its value (91 N7). -/
opaque Config.busClockDivisor : Nat

/-- `BOOT_MAGIC`: open; no rule depends on its value (91 N17). -/
opaque Config.bootMagic : BitVec 16

/-- `BOOT_MAGIC_ADDR`: open; no rule depends on its value (91 N17). -/
opaque Config.bootMagicAddr : Nat

/-! ## Free values -/

/-- A free transport status, less one: the status of a short read and of a write to a device that does not exist is
non-zero and otherwise open (20_memory.md R52, R67; assumption log 12). -/
opaque Config.freeStatus : Nat → Fin 255

/-- What `curr_scan` holds after a watchdog reset: unspecified (70_reset_and_hazards.md R241; assumption log 4). -/
opaque Config.freeCurrScan : Nat → Pair Scan

/-- What `prev_scan` holds after a watchdog reset: unspecified (R241; assumption log 4). -/
opaque Config.freePrevScan : Nat → Pair Scan

/-- What `ev_pos` holds after a watchdog reset: unspecified (R241; assumption log 4). -/
opaque Config.freeEvPos : Nat → BitVec 7

/-- What `last_flush` holds after a watchdog reset: unspecified (R241; assumption log 4). -/
opaque Config.freeLastFlush : Nat → Nat

/-- What `fb` holds after a watchdog reset: unspecified (R241; assumption log 4). -/
opaque Config.freeFb : Nat → Pair (Vector Color 32)

/-- What `dirty` holds after a watchdog reset: unspecified (R241; assumption log 4). -/
opaque Config.freeDirty : Nat → Pair (BitVec 4)

/-- What `cursor` holds after a watchdog reset: unspecified (R241; assumption log 4). -/
opaque Config.freeCursor : Nat → Pair (BitVec 2)

end Sys2Proof
end

