-- ==== Sys2Proof/Syntax.lean ====
section
/-! DEFINITION. The instructions: one constructor per row of spec/opcode_table.json. The 20 host operations are those of
spec/30_encoding.md R100, the 8 write frames those of R81 to R86, the 2 replies those of R87 and R89. -/

namespace Sys2Proof

/-- One row of the opcode table with its operands.
A host operation's address operands are whole bytes, as on the host port (R100): out-of-range values are operands the
operation itself rejects (R213). A frame or reply carries the device address of its transaction (R80), which is no part
of its bytes. -/
inductive Instr where
  /-- `setup()` (R190). -/
  | setup
  /-- `scanMatrix()` (R140). -/
  | scanm
  /-- One step of event iteration (R142). -/
  | nextev
  /-- `updateLeds()` (R167). -/
  | updleds
  /-- `setKeyColor(k, c)` (R165). -/
  | setkc (k : Byte) (c : Color)
  /-- `getKeyColor(k)` (R166). -/
  | getkc (k : Byte)
  /-- Keyboard-level `setKeyscanInterval(v)` (R191). -/
  | setksi (v : Byte)
  /-- `ledPowerFault()` (R192). -/
  | ledpf
  /-- Reboot-to-bootloader (R199). -/
  | reboot
  /-- `readKeys()` on hand `h` (R120). -/
  | sRdkeys (h : Hand)
  /-- `setLedColor(i, c)` on hand `h` (R160). -/
  | sSetlc (h : Hand) (i : Byte) (c : Color)
  /-- `getLedColor(i)` on hand `h` (R161). -/
  | sGetlc (h : Hand) (i : Byte)
  /-- `updateNextLedBank()` on hand `h` (R162). -/
  | sUpdbank (h : Hand)
  /-- `updateLed(i, c)` on hand `h` (R163). -/
  | sUpdled (h : Hand) (i : Byte) (c : Color)
  /-- `updateAllLeds(c)` on hand `h` (R164). -/
  | sUpdall (h : Hand) (c : Color)
  /-- Scanner-level `setKeyscanInterval(v)` on hand `h` (R121). -/
  | sSetksi (h : Hand) (v : Byte)
  /-- `setLedSpiFrequency(v)` on hand `h` (R122). -/
  | sSetspi (h : Hand) (v : Byte)
  /-- `readVersion()` on hand `h` (R124). -/
  | sRdver (h : Hand)
  /-- `readKeyscanInterval()` on hand `h` (R125). -/
  | sRdksi (h : Hand)
  /-- `readLedSpiFrequency()` on hand `h` (R126). -/
  | sRdspi (h : Hand)
  /-- Frame LED_SET_ONE (R81): the three colour bytes are already gamma-corrected. -/
  | ledSetOne (dev : BitVec 7) (index : Byte) (w : Bgr)
  /-- Frame LED_SET_ALL (R82). -/
  | ledSetAll (dev : BitVec 7) (w : Bgr)
  /-- Frame LED_BANK n with the 8 LEDs of the bank (R83). -/
  | ledBank (dev : BitVec 7) (n : BitVec 2) (ws : Vector Bgr 8)
  /-- Frame KEYSCAN_INTERVAL (R84). -/
  | keyscanInterval (dev : BitVec 7) (v : Byte)
  /-- Frame LED_SPI_FREQUENCY (R85). -/
  | ledSpiFrequency (dev : BitVec 7) (v : Byte)
  /-- Frame REGSEL of the firmware version (R86). -/
  | regselVersion (dev : BitVec 7)
  /-- Frame REGSEL of the current keyscan interval (R86). -/
  | regselKsi (dev : BitVec 7)
  /-- Frame REGSEL of the current SPI frequency (R86). -/
  | regselSpi (dev : BitVec 7)
  /-- Reply KEYDATA: the four bank bytes after the key-data tag (R87). -/
  | keydata (dev : BitVec 7) (bank0 bank1 bank2 bank3 : Byte)
  /-- Reply REG: the byte of the selected status register (R89). -/
  | reg (dev : BitVec 7) (v : Byte)
deriving DecidableEq, Repr

/-- An instruction as it stands on a port: the bytes of the host command port (R100), or one bus transaction with its
7-bit device address, its direction and its byte string (R80). -/
inductive Packet where
  /-- Bytes on the host command port, first byte first. -/
  | host (bytes : List Byte)
  /-- A write transaction carrying a frame. -/
  | busWrite (dev : BitVec 7) (bytes : List Byte)
  /-- A read transaction carrying a reply. -/
  | busRead (dev : BitVec 7) (reply : List Byte)
deriving DecidableEq, Repr

/-- The bytes of a packet. -/
def Packet.bytes : Packet → List Byte
  | .host bs => bs
  | .busWrite _ bs => bs
  | .busRead _ bs => bs

/-- Why bytes are no instruction (R99, R104, R96, R97); the run is refused. -/
inductive DecodeError where
  /-- No byte stands on the host port. -/
  | noOpsel
  /-- The operation-select code is not in the table of R100. -/
  | unknownOpsel
  /-- A hand operand is neither 0 nor 1 (R104). -/
  | badHand
  /-- Too few operand bytes (R104). -/
  | missingOperand
  /-- No frame of R88 has this command byte and this length (R96, R99). -/
  | unknownFrame
  /-- A 5-byte reply whose tag is not the key-data tag (R97). -/
  | wrongTag
  /-- A reply of neither 5 nor 1 bytes (R50). -/
  | badReplyLength
deriving DecidableEq, Repr

/-- `length_bytes` of the instruction's row in spec/opcode_table.json (sizes of R50, R100). -/
def Instr.lengthBytes : Instr → Nat
  | .setup => 1
  | .scanm => 1
  | .nextev => 1
  | .updleds => 1
  | .setkc _ _ => 5
  | .getkc _ => 2
  | .setksi _ => 2
  | .ledpf => 1
  | .reboot => 1
  | .sRdkeys _ => 2
  | .sSetlc _ _ _ => 6
  | .sGetlc _ _ => 3
  | .sUpdbank _ => 2
  | .sUpdled _ _ _ => 6
  | .sUpdall _ _ => 5
  | .sSetksi _ _ => 3
  | .sSetspi _ _ => 3
  | .sRdver _ => 2
  | .sRdksi _ => 2
  | .sRdspi _ => 2
  | .ledSetOne _ _ _ => 5
  | .ledSetAll _ _ => 4
  | .ledBank _ _ _ => 25
  | .keyscanInterval _ _ => 2
  | .ledSpiFrequency _ _ => 2
  | .regselVersion _ => 1
  | .regselKsi _ => 1
  | .regselSpi _ => 1
  | .keydata _ _ _ _ _ => 5
  | .reg _ _ => 1

end Sys2Proof
end

