-- ==== Sys2Proof/WellFormed.lean ====
section
/-! DEFINITION. Which terms of `Instr` are well formed: the conditions an encoding of spec/30_encoding.md puts on its
operands that their types do not already hold. -/

namespace Sys2Proof

/-- A device address of the block: one of the two of 30_encoding.md R93 (R43, R128). -/
def deviceOk (cfg : Config) (dev : BitVec 7) : Bool :=
  dev == cfg.busAddrBase || dev == (cfg.busAddrBase ||| cfg.rightSel)

/-- The index byte of LED_SET_ONE has bits 7:5 = 0 (R81). -/
def indexByteOk (index : Byte) : Bool := index.extractLsb' 5 3 == 0

/-- Well-formedness of an instruction. Every host operation is well formed: its hand operand is typed, and an
out-of-range address is an operand the operation rejects by itself (R98, R213). -/
def Instr.wellFormed (cfg : Config) : Instr → Bool
  | .setup => true
  | .scanm => true
  | .nextev => true
  | .updleds => true
  | .setkc _ _ => true
  | .getkc _ => true
  | .setksi _ => true
  | .ledpf => true
  | .reboot => true
  | .sRdkeys _ => true
  | .sSetlc _ _ _ => true
  | .sGetlc _ _ => true
  | .sUpdbank _ => true
  | .sUpdled _ _ _ => true
  | .sUpdall _ _ => true
  | .sSetksi _ _ => true
  | .sSetspi _ _ => true
  | .sRdver _ => true
  | .sRdksi _ => true
  | .sRdspi _ => true
  | .ledSetOne dev index _ => deviceOk cfg dev && indexByteOk index
  | .ledSetAll dev _ => deviceOk cfg dev
  | .ledBank dev _ _ => deviceOk cfg dev
  | .keyscanInterval dev _ => deviceOk cfg dev
  | .ledSpiFrequency dev _ => deviceOk cfg dev
  | .regselVersion dev => deviceOk cfg dev
  | .regselKsi dev => deviceOk cfg dev
  | .regselSpi dev => deviceOk cfg dev
  | .keydata dev _ _ _ _ => deviceOk cfg dev
  | .reg dev _ => deviceOk cfg dev

end Sys2Proof
end

