-- ==== Sys2Proof/Decode.lean ====
section
/-! DEFINITION. Decoding of the three encoded forms of spec/30_encoding.md (host invocations R100 and R104, write frames
R80 to R88 and R99, replies R87 and R89), total on any bytes and refusing by name; then the encoder; then the
well-formedness of a configuration (00_scope.md R4), on which the frame codes' distinctness rests. -/

namespace Sys2Proof

/-! ## Host invocations (R100, R104) -/

/-- The hand operand: one byte, 0 or 1; anything else is refused (R100, R104). -/
def decodeHand (h : Byte) : Except DecodeError Hand :=
  if h = 0 then .ok .left else if h = 1 then .ok .right else .error .badHand

/-- Take one operand byte and go on with the rest. -/
def operand (args : List Byte) (k : Byte → List Byte → Except DecodeError (Instr × List Byte)) :
    Except DecodeError (Instr × List Byte) :=
  match args with
  | a :: rest => k a rest
  | [] => .error .missingOperand

/-- Take a hand operand. -/
def handOperand (args : List Byte) (k : Hand → List Byte → Except DecodeError (Instr × List Byte)) :
    Except DecodeError (Instr × List Byte) :=
  operand args fun a rest =>
    match decodeHand a with
    | .ok h => k h rest
    | .error e => .error e

/-- Take a Color operand: three bytes in the order r, g, b (R100). -/
def colorOperand (args : List Byte) (k : Color → List Byte → Except DecodeError (Instr × List Byte)) :
    Except DecodeError (Instr × List Byte) :=
  operand args fun r args => operand args fun g args => operand args fun b rest => k ⟨r, g, b⟩ rest

/-- One invocation from the front of the host port's bytes, and the bytes left: `opsel`, then the operand bytes in the
order of R100's table. -/
def decodeHost : List Byte → Except DecodeError (Instr × List Byte)
  | [] => .error .noOpsel
  | op :: args =>
    match op with
    | 0x00#8 => .ok (.setup, args)
    | 0x01#8 => .ok (.scanm, args)
    | 0x02#8 => .ok (.nextev, args)
    | 0x03#8 => .ok (.updleds, args)
    | 0x04#8 => operand args fun k args => colorOperand args fun c rest => .ok (.setkc k c, rest)
    | 0x05#8 => operand args fun k rest => .ok (.getkc k, rest)
    | 0x06#8 => operand args fun v rest => .ok (.setksi v, rest)
    | 0x07#8 => .ok (.ledpf, args)
    | 0x08#8 => .ok (.reboot, args)
    | 0x10#8 => handOperand args fun h rest => .ok (.sRdkeys h, rest)
    | 0x11#8 => handOperand args fun h args => operand args fun i args =>
        colorOperand args fun c rest => .ok (.sSetlc h i c, rest)
    | 0x12#8 => handOperand args fun h args => operand args fun i rest => .ok (.sGetlc h i, rest)
    | 0x13#8 => handOperand args fun h rest => .ok (.sUpdbank h, rest)
    | 0x14#8 => handOperand args fun h args => operand args fun i args =>
        colorOperand args fun c rest => .ok (.sUpdled h i c, rest)
    | 0x15#8 => handOperand args fun h args => colorOperand args fun c rest => .ok (.sUpdall h c, rest)
    | 0x16#8 => handOperand args fun h args => operand args fun v rest => .ok (.sSetksi h v, rest)
    | 0x17#8 => handOperand args fun h args => operand args fun v rest => .ok (.sSetspi h v, rest)
    | 0x18#8 => handOperand args fun h rest => .ok (.sRdver h, rest)
    | 0x19#8 => handOperand args fun h rest => .ok (.sRdksi h, rest)
    | 0x1A#8 => handOperand args fun h rest => .ok (.sRdspi h, rest)
    | _ => .error .unknownOpsel

/-! ## Write frames (R80 to R88, R99) -/

/-- The command byte of a bank frame: the 8-bit sum `CMD_LED_BANK_BASE + n` (R92). -/
def bankCommand (cfg : Config) (n : BitVec 2) : Byte := cfg.cmdLedBankBase + n.setWidth 8

/-- The 24 colour bytes of a bank frame as 8 triples b, g, r in ascending LED order (R83). -/
def bankPayload : List Byte → Option (Vector Bgr 8)
  | [b0, g0, r0, b1, g1, r1, b2, g2, r2, b3, g3, r3, b4, g4, r4, b5, g5, r5, b6, g6, r6, b7, g7, r7] =>
    some #v[⟨b0, g0, r0⟩, ⟨b1, g1, r1⟩, ⟨b2, g2, r2⟩, ⟨b3, g3, r3⟩, ⟨b4, g4, r4⟩, ⟨b5, g5, r5⟩, ⟨b6, g6, r6⟩,
      ⟨b7, g7, r7⟩]
  | _ => none

/-- A frame of 25 bytes: bank n for the first n whose command byte it has (R83, R88). -/
def decodeBankFrame (cfg : Config) (dev : BitVec 7) (c : Byte) (ws : Vector Bgr 8) : Except DecodeError Instr :=
  if c = bankCommand cfg 0 then .ok (.ledBank dev 0 ws)
  else if c = bankCommand cfg 1 then .ok (.ledBank dev 1 ws)
  else if c = bankCommand cfg 2 then .ok (.ledBank dev 2 ws)
  else if c = bankCommand cfg 3 then .ok (.ledBank dev 3 ws)
  else .error .unknownFrame

/-- The frame a write transaction carries, read by command byte and number of bytes (R88, R99). -/
def decodeFrame (cfg : Config) (dev : BitVec 7) : List Byte → Except DecodeError Instr
  | [c] =>
    if c = cfg.cmdVersion then .ok (.regselVersion dev)
    else if c = cfg.cmdKeyscanInterval then .ok (.regselKsi dev)
    else if c = cfg.cmdLedSpiFrequency then .ok (.regselSpi dev)
    else .error .unknownFrame
  | [c, v] =>
    if c = cfg.cmdKeyscanInterval then .ok (.keyscanInterval dev v)
    else if c = cfg.cmdLedSpiFrequency then .ok (.ledSpiFrequency dev v)
    else .error .unknownFrame
  | [c, b, g, r] => if c = cfg.cmdLedSetAll then .ok (.ledSetAll dev ⟨b, g, r⟩) else .error .unknownFrame
  | [c, i, b, g, r] => if c = cfg.cmdLedSetOne then .ok (.ledSetOne dev i ⟨b, g, r⟩) else .error .unknownFrame
  | c :: payload =>
    match bankPayload payload with
    | some ws => decodeBankFrame cfg dev c ws
    | none => .error .unknownFrame
  | [] => .error .unknownFrame

/-! ## Replies (R87, R89, R97) -/

/-- The reply a read transaction carries, told by its number of bytes (R99); a 5-byte reply with another tag is not key
data (R97). -/
def decodeReply (cfg : Config) (dev : BitVec 7) : List Byte → Except DecodeError Instr
  | [v] => .ok (.reg dev v)
  | [t, b0, b1, b2, b3] => if t = cfg.replyKeydata then .ok (.keydata dev b0 b1 b2 b3) else .error .wrongTag
  | _ => .error .badReplyLength

/-! ## The decoder -/

/-- The first instruction of a packet, and what is left of the packet: bytes left on the host port are the next
invocation (assumption log 11); a bus transaction is one frame or reply and leaves nothing. -/
def decode (cfg : Config) : Packet → Except DecodeError (Instr × Option Packet)
  | .host bytes =>
    match decodeHost bytes with
    | .ok (i, []) => .ok (i, none)
    | .ok (i, b :: rest) => .ok (i, some (.host (b :: rest)))
    | .error e => .error e
  | .busWrite dev bytes =>
    match decodeFrame cfg dev bytes with
    | .ok i => .ok (i, none)
    | .error e => .error e
  | .busRead dev bytes =>
    match decodeReply cfg dev bytes with
    | .ok i => .ok (i, none)
    | .error e => .error e

/-! ## The encoder -/

/-- The hand operand's byte (R100). -/
def handByte : Hand → Byte
  | .left => 0
  | .right => 1

/-- The wire bytes of a colour: blue, green, red (20_memory.md R48). -/
def bgrBytes (w : Bgr) : List Byte := [w.b, w.g, w.r]

/-- The bytes of frame LED_SET_ONE (R81). -/
def ledSetOneFrame (cfg : Config) (index : Byte) (w : Bgr) : List Byte := cfg.cmdLedSetOne :: index :: bgrBytes w

/-- The bytes of frame LED_SET_ALL (R82). -/
def ledSetAllFrame (cfg : Config) (w : Bgr) : List Byte := cfg.cmdLedSetAll :: bgrBytes w

/-- The bytes of frame LED_BANK n (R83). -/
def ledBankFrame (cfg : Config) (n : BitVec 2) (ws : Vector Bgr 8) : List Byte :=
  bankCommand cfg n :: ws.toList.flatMap bgrBytes

/-- The bytes of frame KEYSCAN_INTERVAL (R84). -/
def keyscanIntervalFrame (cfg : Config) (v : Byte) : List Byte := [cfg.cmdKeyscanInterval, v]

/-- The bytes of frame LED_SPI_FREQUENCY (R85). -/
def ledSpiFrequencyFrame (cfg : Config) (v : Byte) : List Byte := [cfg.cmdLedSpiFrequency, v]

/-- The bytes of a key-data reply (R87). -/
def keydataReply (cfg : Config) (b0 b1 b2 b3 : Byte) : List Byte := [cfg.replyKeydata, b0, b1, b2, b3]

/-- The packet of an instruction, from the same tables as the decoder. -/
def encode (cfg : Config) : Instr → Packet
  | .setup => .host [0x00]
  | .scanm => .host [0x01]
  | .nextev => .host [0x02]
  | .updleds => .host [0x03]
  | .setkc k c => .host [0x04, k, c.r, c.g, c.b]
  | .getkc k => .host [0x05, k]
  | .setksi v => .host [0x06, v]
  | .ledpf => .host [0x07]
  | .reboot => .host [0x08]
  | .sRdkeys h => .host [0x10, handByte h]
  | .sSetlc h i c => .host [0x11, handByte h, i, c.r, c.g, c.b]
  | .sGetlc h i => .host [0x12, handByte h, i]
  | .sUpdbank h => .host [0x13, handByte h]
  | .sUpdled h i c => .host [0x14, handByte h, i, c.r, c.g, c.b]
  | .sUpdall h c => .host [0x15, handByte h, c.r, c.g, c.b]
  | .sSetksi h v => .host [0x16, handByte h, v]
  | .sSetspi h v => .host [0x17, handByte h, v]
  | .sRdver h => .host [0x18, handByte h]
  | .sRdksi h => .host [0x19, handByte h]
  | .sRdspi h => .host [0x1A, handByte h]
  | .ledSetOne dev index w => .busWrite dev (ledSetOneFrame cfg index w)
  | .ledSetAll dev w => .busWrite dev (ledSetAllFrame cfg w)
  | .ledBank dev n ws => .busWrite dev (ledBankFrame cfg n ws)
  | .keyscanInterval dev v => .busWrite dev (keyscanIntervalFrame cfg v)
  | .ledSpiFrequency dev v => .busWrite dev (ledSpiFrequencyFrame cfg v)
  | .regselVersion dev => .busWrite dev [cfg.cmdVersion]
  | .regselKsi dev => .busWrite dev [cfg.cmdKeyscanInterval]
  | .regselSpi dev => .busWrite dev [cfg.cmdLedSpiFrequency]
  | .keydata dev b0 b1 b2 b3 => .busRead dev (keydataReply cfg b0 b1 b2 b3)
  | .reg dev v => .busRead dev [v]

/-! ## Words of spec/opcode_table.json -/

/-- The first `n` bytes of a word, bit 0 being the least significant bit of byte 0. -/
def wordBytes : Nat → Nat → List Byte
  | 0, _ => []
  | n + 1, w => BitVec.ofNat 8 w :: wordBytes n (w / 256)

/-- Total bytes of the host invocation with this operation-select code (R100); 0 where the table has none. -/
def hostLength (op : Byte) : Nat :=
  match decodeHost [op, 0, 0, 0, 0, 0] with
  | .ok (i, _) => i.lengthBytes
  | .error _ => 0

/-- The table's rows lie in three spaces (host port, write frames, replies) whose words overlap, and a word does not
name its space. This places the word `w` of `nbits` bits: as a host invocation if `nbits` is at most one byte or the
row's whole length; else as the write frame or reply of exactly that length; a word of at most one byte that heads no
host operation is taken as the bank frame it heads (assumption log 10). Bits above `nbits` are 0. -/
def tablePacket (cfg : Config) (nbits w : Nat) : Packet :=
  let op := BitVec.ofNat 8 w
  let n := (nbits + 7) / 8
  let v := w % 2 ^ nbits
  if hostLength op ≠ 0 ∧ (n ≤ 1 ∨ n = hostLength op) then .host (wordBytes (hostLength op) v)
  else if n = 5 ∧ op = cfg.replyKeydata then .busRead cfg.busAddrBase (wordBytes 5 v)
  else if n ≤ 1 ∧ ¬ (decodeFrame cfg cfg.busAddrBase [op] matches .ok _) then
    .busWrite cfg.busAddrBase (wordBytes 25 v)
  else .busWrite cfg.busAddrBase (wordBytes n v)

/-- The instruction the decoder reads from a word of the opcode table, under the default configuration. -/
def decodeTableWord (nbits w : Nat) : Option Instr :=
  match decode Config.default (tablePacket Config.default nbits w) with
  | .ok (i, _) => some i
  | .error _ => none

/-! ## Well-formed configurations (00_scope.md R4) -/

/-- R4 (a): the nine command bytes are pairwise distinct and the last bank code does not exceed 255. -/
def commandsOk (cfg : Config) : Bool :=
  decide ([cfg.cmdVersion, cfg.cmdKeyscanInterval, cfg.cmdLedSetAll, cfg.cmdLedSetOne, cfg.cmdLedSpiFrequency,
    bankCommand cfg 0, bankCommand cfg 1, bankCommand cfg 2, bankCommand cfg 3].Nodup) &&
  decide (cfg.cmdLedBankBase.toNat + 3 ≤ 255)

/-- R4 (b): the base address and the right-hand select share no bit, and the select is not 0. -/
def addressesOk (cfg : Config) : Bool := (cfg.busAddrBase &&& cfg.rightSel) == 0 && cfg.rightSel != 0

/-- R4 (c): `KEY_LED_MAP` is a bijection on [0, 64): 64 entries below 64, no two equal. -/
def mapOk (cfg : Config) : Bool := decide (cfg.keyLedMap.toList.map BitVec.toNat).Nodup

/-- A list of bytes never steps down. -/
def nonDecreasing : List Byte → Bool
  | a :: b :: rest => decide (a.toNat ≤ b.toNat) && nonDecreasing (b :: rest)
  | _ => true

/-- R4 (d): `GAMMA` is monotonically non-decreasing. -/
def gammaOk (cfg : Config) : Bool := nonDecreasing cfg.gamma.toList

/-- R4 (e): the flush interval is below `2^TIMER_BITS`. -/
def intervalOk (cfg : Config) : Bool := decide (cfg.ledFlushIntervalMs < 2 ^ cfg.timerBits)

/-- R4: a configuration for which all five conditions hold; a model refuses any other. -/
def configOk (cfg : Config) : Bool :=
  commandsOk cfg && addressesOk cfg && mapOk cfg && gammaOk cfg && intervalOk cfg

end Sys2Proof
end

