-- ==== Sys2Proof/Machine/State.lean ====
section
/-! DEFINITION. The machine's state as plain data: the block's registers (spec/10_state.md R10), its parameters, inputs
and outputs, the two peripherals as far as the spec gives them (20_memory.md R60), and what the environment does next;
the ways a step can stop; the state right after reset. -/

namespace Sys2Proof.Machine

/-! ## Results on the host port (30_encoding.md R101) -/

/-- A KeyswitchEvent (41_key_scan_edge.md R141). -/
structure KeyEvent where
  address : BitVec 6
  previousState : Bool
  currentState : Bool
deriving DecidableEq, Repr

/-- What an operation returns on the host port, by the formats of 30_encoding.md R101. -/
inductive Result where
  /-- No result. -/
  | none
  /-- A raw transport status. -/
  | status (s : Byte)
  /-- A status pair, left hand first. -/
  | statusPair (left right : Byte)
  /-- A bool. -/
  | bool (b : Bool)
  /-- An optional byte, or the optional status of S.UPDLED. -/
  | optByte (v : Option Byte)
  /-- An optional Color. -/
  | optColor (c : Option Color)
  /-- An optional KeyswitchScan. -/
  | optScan (d : Option Scan)
  /-- An optional KeyswitchEvent. -/
  | optEvent (e : Option KeyEvent)
deriving DecidableEq, Repr

/-! ## The bus (20_memory.md) -/

/-- What a read transaction returns (R52); the status of an `err` is not 0. -/
inductive ReadResult where
  | ok (bytes : List Byte)
  | err (status : Byte)
deriving DecidableEq, Repr

/-- An entry of the ghost history `bus_log` (10_state.md R27): `W(dev, bytes, status)` or `R(dev, n, result)`. -/
inductive Transaction where
  | write (dev : BitVec 7) (bytes : List Byte) (status : Byte)
  | read (dev : BitVec 7) (n : Nat) (result : ReadResult)
deriving DecidableEq, Repr

/-- A peripheral's pending reply selection `p_sel` (20_memory.md R60, 10_state.md R30 b). -/
inductive Sel where
  | none
  | version
  | keyscanInterval
  | spiFreq
deriving DecidableEq, Repr

/-- One peripheral: the reference responder's state (20_memory.md R60). -/
structure Periph where
  /-- `p_keys`: the debounced key state, bit layout as R45. -/
  keys : Scan
  /-- `p_led[i]`: the bytes last received for LED i. -/
  leds : Vector Bgr 32
  /-- `p_keyscan_interval`. -/
  keyscanInterval : Byte
  /-- `p_spi_freq`. -/
  spiFreq : Byte
  /-- `p_version`. -/
  version : Byte
  /-- `p_sel`. -/
  sel : Sel
  /-- `p_fail`: while set every transaction fails and changes nothing. -/
  fail : Bool
deriving DecidableEq, Repr

/-- How the environment answers one transaction (20_memory.md R58): as the reference responder does, with a status and
bytes of its own (any status; for a read, any bytes), or never. -/
inductive Answer where
  | responder
  | forced (status : Byte) (bytes : List Byte)
  | hang
deriving DecidableEq, Repr

/-- What the environment does around one bus transaction: what each peripheral has become when the transaction is issued
(`none`: nothing changed since; R53: key state and registers may change at any moment between two transactions), and the
answer. -/
structure Turn where
  left : Option Periph
  right : Option Periph
  answer : Answer
deriving DecidableEq, Repr

/-- An input the machine takes between two operations: an instruction on a port, a script directive of
30_encoding.md R102, a change of an input pin, what the environment will do at a coming transaction, or the watchdog. -/
inductive Input where
  /-- An invocation on the host port, or one bus transaction. -/
  | packet (p : Packet)
  /-- `@ms = t`: the time source returns t until changed. -/
  | time (t : Nat)
  /-- The overcurrent pin's decoded level (10_state.md R25). -/
  | overcurrent (b : Bool)
  /-- `@keys h = w`: the debounced key state of a hand. -/
  | keys (h : Hand) (w : Scan)
  /-- `@fail h on|off`. -/
  | fail (h : Hand) (b : Bool)
  /-- One more turn for the environment to take, after those pending. -/
  | turn (t : Turn)
  /-- The watchdog forces a restart (60_exceptions.md R226). -/
  | watchdog
deriving DecidableEq, Repr

/-! ## The state -/

/-- The machine's state. INVENTORY.md lists each field with its rule and its reset value. -/
structure State where
  /-- The configuration record (00_scope.md R3): constant, written by nothing. -/
  cfg : Config
  /-- `curr_scan[h]` (R11). -/
  currScan : Pair Scan
  /-- `prev_scan[h]` (R12). -/
  prevScan : Pair Scan
  /-- `ev_pos` (R15). -/
  evPos : BitVec 7
  /-- `last_flush` (R20), below `2^TIMER_BITS`. -/
  lastFlush : Nat
  /-- `initialized` (R21). -/
  initialized : Bool
  /-- `halted` (R22). -/
  halted : Bool
  /-- `fb[h][i]` (R16). -/
  fb : Pair (Vector Color 32)
  /-- `dirty[h]`, bit n for bank n (R18). -/
  dirty : Pair (BitVec 4)
  /-- `cursor[h]` (R19). -/
  cursor : Pair (BitVec 2)
  /-- `power_en` (R26). -/
  powerEn : Bool
  /-- `bus_log`, oldest transaction first (R27). -/
  busLog : List Transaction
  /-- The level of the input `ms_now` (R24). -/
  msNow : Nat
  /-- The level of the input `overcurrent` (R25). -/
  overcurrent : Bool
  /-- What the last operation returned (30_encoding.md R101). -/
  result : Result
  /-- The block is stuck in a transaction that never returned (60_exceptions.md R215). -/
  hung : Bool
  /-- The inputs still to be taken, oldest first. -/
  inbox : List Input
  /-- What the environment does at the coming transactions, oldest first. -/
  turns : List Turn
  /-- The two peripherals (20_memory.md R60). -/
  periph : Pair Periph
  /-- The index of the next free value. -/
  freeCtr : Nat
deriving DecidableEq, Repr

/-- Why a step faults. No operation of the block faults: a failed transaction, a wrong tag and an invalid address are
results (60_exceptions.md R210). -/
inductive Fault where
  /-- Raised by `step` when the block is stuck in a transaction that never returned and no input is left: it makes no
  further step (R215, 93 U9). Safe: the model stops where the hardware waits. -/
  | stuckInTransaction
  /-- Raised by `step` when the block spins after reboot-to-bootloader and no input is left (43_system_ops.md R199,
  93 U10). Safe: the model stops where the hardware spins. -/
  | spinningForReboot
deriving DecidableEq, Repr

/-- Why a run is refused: the situations to which the spec gives no meaning. -/
inductive Refusal where
  /-- Raised by `exec` for an instruction without a meaning; no arm of this model raises it. Safe: nothing is claimed
  of the instruction. -/
  | notModelled (mnemonic : String)
  /-- Raised by every instruction and by every step, an idle one and an input's too, under a configuration that R4 calls
  ill-formed (00_scope.md R4, 93 U15; assumption log 27). Safe: the spec refuses it. -/
  | illFormedConfig
  /-- Raised by an operation other than SETUP before `setup` (43_system_ops.md R194), and by a bare frame or reply then
  (70_reset_and_hazards.md R240; assumption log 9). Safe: the spec refuses it. -/
  | beforeSetup
  /-- Raised by every instruction after reboot-to-bootloader (R194, R199). Safe: the spec refuses it. -/
  | blockHalted
  /-- Raised by every instruction while the block is stuck in a hung transaction (R215). Safe: the spec admits none. -/
  | blockStuck
  /-- Raised by a frame or reply taken alone that is not well formed (`Instr.wellFormed`): its device is neither of the
  block's two (20_memory.md R43), or its LED index byte has a reserved bit set (30_encoding.md R81). Safe: the block never
  issues one (40_bus_transceiver.md R128; assumption log 30). -/
  | illFormedTransaction
  /-- Raised by `step` for bytes that are no instruction (30_encoding.md R104, R96, R97), whatever the
  block's mode bits are (assumption log 25). Safe: the spec refuses them. -/
  | undecodable (e : DecodeError)
deriving DecidableEq, Repr

/-! ## Writing one field

Every write of the machine goes through these. `simps` makes, for each of them, one simp lemma per field of `State`, true by
`rfl` (`State.withFb_fb`, `State.withFb_dirty`, …). No definition writes `cfg`. -/

/-- The state with `currScan` replaced. -/
@[simps] def State.withCurrScan (s : State) (v : Pair Scan) : State := { s with currScan := v }

/-- The state with `prevScan` replaced. -/
@[simps] def State.withPrevScan (s : State) (v : Pair Scan) : State := { s with prevScan := v }

/-- The state with `evPos` replaced. -/
@[simps] def State.withEvPos (s : State) (v : BitVec 7) : State := { s with evPos := v }

/-- The state with `lastFlush` replaced. -/
@[simps] def State.withLastFlush (s : State) (v : Nat) : State := { s with lastFlush := v }

/-- The state with `initialized` replaced. -/
@[simps] def State.withInitialized (s : State) (v : Bool) : State := { s with initialized := v }

/-- The state with `halted` replaced. -/
@[simps] def State.withHalted (s : State) (v : Bool) : State := { s with halted := v }

/-- The state with `fb` replaced. -/
@[simps] def State.withFb (s : State) (v : Pair (Vector Color 32)) : State := { s with fb := v }

/-- The state with `dirty` replaced. -/
@[simps] def State.withDirty (s : State) (v : Pair (BitVec 4)) : State := { s with dirty := v }

/-- The state with `cursor` replaced. -/
@[simps] def State.withCursor (s : State) (v : Pair (BitVec 2)) : State := { s with cursor := v }

/-- The state with `powerEn` replaced. -/
@[simps] def State.withPowerEn (s : State) (v : Bool) : State := { s with powerEn := v }

/-- The state with `busLog` replaced. -/
@[simps] def State.withBusLog (s : State) (v : List Transaction) : State := { s with busLog := v }

/-- The state with `msNow` replaced. -/
@[simps] def State.withMsNow (s : State) (v : Nat) : State := { s with msNow := v }

/-- The state with `overcurrent` replaced. -/
@[simps] def State.withOvercurrent (s : State) (v : Bool) : State := { s with overcurrent := v }

/-- The state with `result` replaced. -/
@[simps] def State.withResult (s : State) (v : Result) : State := { s with result := v }

/-- The state with `hung` replaced. -/
@[simps] def State.withHung (s : State) (v : Bool) : State := { s with hung := v }

/-- The state with `inbox` replaced. -/
@[simps] def State.withInbox (s : State) (v : List Input) : State := { s with inbox := v }

/-- The state with `turns` replaced. -/
@[simps] def State.withTurns (s : State) (v : List Turn) : State := { s with turns := v }

/-- The state with `periph` replaced. -/
@[simps] def State.withPeriph (s : State) (v : Pair Periph) : State := { s with periph := v }

/-- The state with `freeCtr` replaced. -/
@[simps] def State.withFreeCtr (s : State) (v : Nat) : State := { s with freeCtr := v }

/-! ## Reset -/

/-- A peripheral in the state right after reset: `p_sel` none and `p_fail` clear as 20_memory.md R60 says. DESIGN
CHOICE, unsafe: keys, LEDs and registers 0, for which the spec gives no value (assumption log 6). -/
def Periph.reset : Periph where
  keys := 0
  leds := Vector.replicate 32 ⟨0, 0, 0⟩
  keyscanInterval := 0
  spiFreq := 0
  version := 0
  sel := .none
  fail := false

/-- The machine after power-on: `initialized`, `halted`, `power_en` and `bus_log` as 10_state.md R31 and
70_reset_and_hazards.md R240 say. DESIGN CHOICE, unsafe: every register R31 leaves unspecified is 0 or black (assumption
log 3), the inputs are low (18), the peripherals as `Periph.reset` (6), the configuration is the default with the
identity table (1, 2). -/
def State.reset : State where
  cfg := Config.default
  currScan := Pair.both 0
  prevScan := Pair.both 0
  evPos := 0
  lastFlush := 0
  initialized := false
  halted := false
  fb := Pair.both (Vector.replicate 32 Color.black)
  dirty := Pair.both 0
  cursor := Pair.both 0
  powerEn := false
  busLog := []
  msNow := 0
  overcurrent := false
  result := .none
  hung := false
  inbox := []
  turns := []
  periph := Pair.both Periph.reset
  freeCtr := 0

end Sys2Proof.Machine
end

