-- ==== Sys2Proof/Machine/Operands.lean ====
section
/-! DEFINITION. Operand assembly (spec/30_encoding.md section 3): key and LED addresses, the bits of a scan word, device
addresses, colours in the frame buffer and on the wire, and the time difference of the rate limiter. -/

namespace Sys2Proof.Machine

/-! ## Addresses (R40, R41, R90, R91) -/

/-- The hand an address bit selects: 0 = left, 1 = right. -/
def handOfBit (b : Bool) : Hand := if b then .right else .left

/-- `hand(k) = k[5]` of a KeyAddr (R90). -/
def keyHand (k : BitVec 6) : Hand := handOfBit (k.getLsbD 5)

/-- `bank(k) = k[4:3]` (R90). -/
def keyBank (k : BitVec 6) : BitVec 2 := k.extractLsb' 3 2

/-- `bitpos(k) = k[2:0]` (R90). -/
def keyBitpos (k : BitVec 6) : BitVec 3 := k.extractLsb' 0 3

/-- The global bank index `g = k[5:3]` (R90). -/
def keyGlobalBank (k : BitVec 6) : BitVec 3 := k.extractLsb' 3 3

/-- The hand's address bit. -/
def handBit : Hand → BitVec 1
  | .left => 0
  | .right => 1

/-- `k = {hand, bank, bitpos}` (R90). -/
def assembleKey (h : Hand) (bank : BitVec 2) (bitpos : BitVec 3) : BitVec 6 := handBit h ++ bank ++ bitpos

/-- `hand(l) = l[5]` of a LedAddr (R91). -/
def ledHand (l : BitVec 6) : Hand := handOfBit (l.getLsbD 5)

/-- `index(l) = l[4:0]` (R91). -/
def ledIndex (l : BitVec 6) : BitVec 5 := l.extractLsb' 0 5

/-- `ledbank(i) = i[4:3]` (R41). -/
def ledBankOf (i : BitVec 5) : BitVec 2 := i.extractLsb' 3 2

/-- `ledslot(i) = i[2:0]` (R41). -/
def ledSlotOf (i : BitVec 5) : BitVec 3 := i.extractLsb' 0 3

/-- A KeyAddr operand: bytes of 64 and above are InvalidAddress (R98, R213). -/
def keyOperand (k : Byte) : Option (BitVec 6) := if k.toNat < 64 then some (k.setWidth 6) else none

/-- A per-hand LED index operand: bytes of 32 and above are InvalidAddress (R98, R213). -/
def indexOperand (i : Byte) : Option (BitVec 5) := if i.toNat < 32 then some (i.setWidth 5) else none

/-- `led_of(k) = KEY_LED_MAP[k]` (R42). -/
def ledOfKey (cfg : Config) (k : BitVec 6) : BitVec 6 := cfg.keyLedMap[k.toNat]'(k.isLt)

/-! ## Scan words (R45, R46, R47) -/

/-- `bank(S, b) = S[8b+7 : 8b]` (R45). -/
def scanBank (d : Scan) (b : BitVec 2) : Byte := d.extractLsb' (8 * b.toNat) 8

/-- The scan word of four bank bytes: `bank3 << 24 | bank2 << 16 | bank1 << 8 | bank0` (R45, R47). -/
def scanOfBanks (b0 b1 b2 b3 : Byte) : Scan := b3 ++ b2 ++ b1 ++ b0

/-- `keybit(S, k) = S[k[5]][k[4:0]]` (R46). -/
def keybit (p : Pair Scan) (k : BitVec 6) : Bool := (p.get (keyHand k)).getLsbD (k.extractLsb' 0 5).toNat

/-- `gbank(S, g) = bank(S[g[2]], g[1:0])`: the byte of global bank g (41_key_scan_edge.md R142). -/
def globalBank (p : Pair Scan) (g : BitVec 3) : Byte :=
  scanBank (p.get (handOfBit (g.getLsbD 2))) (g.extractLsb' 0 2)

/-- The scan word a key read delivers: its four bank bytes, if it returned and its tag is the key-data tag; otherwise
none, whatever the bytes are (R87, R97, R120; the transport result is looked at first, R218). -/
def keyDataOf (cfg : Config) : ReadResult → Option Scan
  | .ok [t, b0, b1, b2, b3] => if t = cfg.replyKeydata then some (scanOfBanks b0 b1 b2 b3) else none
  | .ok _ => none
  | .err _ => none

/-- The byte a status-register read delivers (R89, R123). -/
def registerByteOf : ReadResult → Option Byte
  | .ok (v :: _) => some v
  | .ok [] => none
  | .err _ => none

/-! ## Device addresses (R93) -/

/-- `dev_addr(h) = BUS_ADDR_BASE | (h = 1 ? RIGHT_SEL : 0)` (R93). -/
def devAddr (cfg : Config) : Hand → BitVec 7
  | .left => cfg.busAddrBase
  | .right => cfg.busAddrBase ||| cfg.rightSel

/-- The hand a device address belongs to, if any (R43). -/
def handOfDev (cfg : Config) (dev : BitVec 7) : Option Hand :=
  if dev = devAddr cfg .left then some .left else if dev = devAddr cfg .right then some .right else none

/-! ## Colours (R17, R94, R95, R175, R181) -/

/-- `G(c) = GAMMA[c]` (42_led_sync.md R175). -/
def gammaOf (cfg : Config) (c : Byte) : Byte := cfg.gamma[c.toNat]'(c.isLt)

/-- A colour on the wire: gamma-corrected, blue, green, red (R94). -/
def wire (cfg : Config) (c : Color) : Bgr := ⟨gammaOf cfg c.b, gammaOf cfg c.g, gammaOf cfg c.r⟩

/-- The write shift of the packed mode: `c5 = c[7:3]` (R181). -/
def shrink5 (c : Byte) : BitVec 5 := c.extractLsb' 3 5

/-- The read shift of the packed mode: `expand5(c5) = (c5 << 3) | (c5 >> 2)` (R181). -/
def expand5 (c5 : BitVec 5) : Byte := (c5.setWidth 8 <<< 3) ||| (c5.setWidth 8 >>> 2)

/-- The packed word of a colour: red in bits 4:0, green in 9:5, blue in 14:10, bit 15 zero (R95). -/
def packColor (c : Color) : BitVec 16 := (0 : BitVec 1) ++ shrink5 c.b ++ shrink5 c.g ++ shrink5 c.r

/-- The colour a packed word reads back as (R95, R181). -/
def unpackColor (w : BitVec 16) : Color :=
  ⟨expand5 (w.extractLsb' 0 5), expand5 (w.extractLsb' 5 5), expand5 (w.extractLsb' 10 5)⟩

/-- `q(c)`, the stored form of a colour: itself in rgb888 mode; in rgb555 mode what its 15 stored bits read back as
(R181; the frame buffer holds this form, assumption log 19). -/
def quantise (cfg : Config) (c : Color) : Color :=
  match cfg.colorMode with
  | .rgb888 => c
  | .rgb555 => ⟨expand5 (shrink5 c.r), expand5 (shrink5 c.g), expand5 (shrink5 c.b)⟩

/-- The read of `fb[h][i]` in one hand's frame buffer. -/
def ledAt {α : Type} (leds : Vector α 32) (i : BitVec 5) : α := leds[i.toNat]'(i.isLt)

/-- One hand's LED array after the write of entry i. -/
def setLed {α : Type} (leds : Vector α 32) (i : BitVec 5) (v : α) : Vector α 32 := leds.set i.toNat v i.isLt

/-- The index of slot j of bank n: `8n + j` (R41). -/
def bankLed (n : BitVec 2) (j : BitVec 3) : BitVec 5 := n ++ j

/-- The wire colour of slot j of bank n. -/
def slotWire (cfg : Config) (leds : Vector Color 32) (n : BitVec 2) (j : BitVec 3) : Bgr :=
  wire cfg (ledAt leds (bankLed n j))

/-- The wire colours of bank n in ascending LED order (R83). -/
def bankWire (cfg : Config) (leds : Vector Color 32) (n : BitVec 2) : Vector Bgr 8 :=
  #v[slotWire cfg leds n 0, slotWire cfg leds n 1, slotWire cfg leds n 2, slotWire cfg leds n 3,
    slotWire cfg leds n 4, slotWire cfg leds n 5, slotWire cfg leds n 6, slotWire cfg leds n 7]

/-! ## Time (42_led_sync.md R167) -/

/-- One sample of the input `ms_now`: a count modulo `2^TIMER_BITS` (10_state.md R24). -/
def timeSample (cfg : Config) (ms : Nat) : Nat := ms % 2 ^ cfg.timerBits

/-- `(now - last_flush) mod 2^TIMER_BITS` (R167). -/
def elapsedMs (cfg : Config) (now last : Nat) : Nat :=
  (now + (2 ^ cfg.timerBits - last % 2 ^ cfg.timerBits)) % 2 ^ cfg.timerBits

/-! ## Result encodings (R101) -/

/-- The 16-bit event word: valid in bit 15, address in 13:8, previous and current state in bits 1 and 0 (R101). -/
def eventWord : Option KeyEvent → BitVec 16
  | some e => (1 : BitVec 1) ++ (0 : BitVec 1) ++ e.address ++ (0 : BitVec 6) ++ BitVec.ofBool e.previousState ++
      BitVec.ofBool e.currentState
  | none => 0

/-- The bytes of a result on the host port (R101). DESIGN CHOICE, unsafe: the bytes after `valid` = 0 of an optional Color
and of an optional KeyswitchScan are zeros, where R101 gives 0 only for the optional byte (assumption log 28). The event
result is a 16-bit word, `eventWord`, whose byte order on
the port the spec does not give; it has no bytes here (assumption log 14). -/
def resultBytes : Result → List Byte
  | .none => []
  | .status s => [s]
  | .statusPair l r => [l, r]
  | .bool b => [if b then 1 else 0]
  | .optByte (some v) => [1, v]
  | .optByte none => [0, 0]
  | .optColor (some c) => [1, c.r, c.g, c.b]
  | .optColor none => [0, 0, 0, 0]
  | .optScan (some d) => [1, scanBank d 0, scanBank d 1, scanBank d 2, scanBank d 3]
  | .optScan none => [0, 0, 0, 0, 0]
  | .optEvent _ => []

end Sys2Proof.Machine
end

