-- ==== Sys2Proof/Machine/Flags.lean ====
section
/-! DEFINITION. The one-bit conditions of the block (spec/10_state.md R28): the dirty bits, the outcome of a key read, of
a write, and the rate limiter's gate. The block has no condition-code register. -/

namespace Sys2Proof.Machine

/-- The bit of bank n in a dirty mask (R18). -/
def bankBit (n : BitVec 2) : BitVec 4 := 1#4 <<< n.toNat

/-- `dirty[h][n] = 1` (R18). -/
def isDirty (mask : BitVec 4) (n : BitVec 2) : Bool := mask.getLsbD n.toNat

/-- The mask after `dirty[h][n] <- 1` (R160). -/
def markDirty (mask : BitVec 4) (n : BitVec 2) : BitVec 4 := mask ||| bankBit n

/-- The mask after `dirty[h][n] <- 0` (R162). -/
def markClean (mask : BitVec 4) (n : BitVec 2) : BitVec 4 := mask &&& ~~~(bankBit n)

/-- The `success` of `readKeys` (R28, R120). -/
def readSucceeded (cfg : Config) (r : ReadResult) : Bool := (keyDataOf cfg r).isSome

/-- A write's status says success: exactly the status 0 (60_exceptions.md R216). -/
def writeSucceeded (status : Byte) : Bool := status == 0

/-- The rate limiter's gate: the call fires (42_led_sync.md R167, R171). -/
def flushDue (cfg : Config) (now last : Nat) : Bool := decide (cfg.ledFlushIntervalMs ≤ elapsedMs cfg now last)

/-- Key k differs between two snapshots: a press or a release (41_key_scan_edge.md R146). -/
def keyChanged (curr prev : Pair Scan) (k : BitVec 6) : Bool := keybit curr k != keybit prev k

end Sys2Proof.Machine
end

