-- ==== Sys2Proof/Machine/Ops.lean ====
section
/-! DEFINITION. The shared operations: the peripherals' reference responder (spec/20_memory.md R60 to R67), the two bus
primitives under any answer of the environment (R51, R52, R58), running an operation's transactions in sequence, what a
hang does (60_exceptions.md R215), admission (43_system_ops.md R194), and the watchdog reset (70_reset_and_hazards.md
R241), which is the block's only way back from a stuck or halted state. The block takes no exception: a failure is a
result of the operation that meets it (60_exceptions.md R210, R219). -/

namespace Sys2Proof.Machine

/-! ## The reference responder (R60 to R67) -/

/-- The LED array after the eight triples of a bank frame: `p_led[8n + j] <- d_j` (R63). -/
def writeBank (leds : Vector Bgr 32) (n : BitVec 2) (ws : Vector Bgr 8) : Vector Bgr 32 :=
  setLed (setLed (setLed (setLed (setLed (setLed (setLed (setLed leds (bankLed n 0) ws[0]) (bankLed n 1) ws[1])
    (bankLed n 2) ws[2]) (bankLed n 3) ws[3]) (bankLed n 4) ws[4]) (bankLed n 5) ws[5]) (bankLed n 6) ws[6])
    (bankLed n 7) ws[7]

/-- What a write frame does to the peripheral that receives it (R61 to R65). Host operations and replies are no write
frames and do nothing to it. -/
def receiveFrame (p : Periph) : Instr → Periph
  | .ledSetOne _ index w =>
    match indexOperand index with
    | some i => { p with leds := setLed p.leds i w }
    | none => p
  | .ledSetAll _ w => { p with leds := Vector.replicate 32 w }
  | .ledBank _ n ws => { p with leds := writeBank p.leds n ws }
  | .keyscanInterval _ v => { p with keyscanInterval := v }
  | .ledSpiFrequency _ v => { p with spiFreq := v }
  | .regselVersion _ => { p with sel := .version }
  | .regselKsi _ => { p with sel := .keyscanInterval }
  | .regselSpi _ => { p with sel := .spiFreq }
  | .setup | .scanm | .nextev | .updleds | .setkc _ _ | .getkc _ | .setksi _ | .ledpf | .reboot => p
  | .sRdkeys _ | .sSetlc _ _ _ | .sGetlc _ _ | .sUpdbank _ | .sUpdled _ _ _ | .sUpdall _ _ => p
  | .sSetksi _ _ | .sSetspi _ _ | .sRdver _ | .sRdksi _ | .sRdspi _ | .keydata _ _ _ _ _ | .reg _ _ => p

/-- A peripheral's answer to a write of these bytes: its status, and what it has become (R61 to R67). Bytes that are no
frame change nothing and return 0; while `p_fail` is set the status is 2 and nothing changes. -/
def Periph.takeWrite (cfg : Config) (dev : BitVec 7) (bytes : List Byte) (p : Periph) : Byte × Periph :=
  if p.fail then (2, p)
  else
    match decodeFrame cfg dev bytes with
    | .ok i => (0, receiveFrame p i)
    | .error _ => (0, p)

/-- The key-data reply of a peripheral (R66). -/
def Periph.keydataBytes (cfg : Config) (p : Periph) : List Byte :=
  keydataReply cfg (scanBank p.keys 0) (scanBank p.keys 1) (scanBank p.keys 2) (scanBank p.keys 3)

/-- The byte of the selected register, if one is selected. -/
def Periph.selectedByte (p : Periph) : Option Byte :=
  match p.sel with
  | .none => none
  | .version => some p.version
  | .keyscanInterval => some p.keyscanInterval
  | .spiFreq => some p.spiFreq

/-- A peripheral's answer to a read of n bytes (R66, R67): key data, truncated to n bytes, if no register is selected;
else the register's byte and filler 0xFF, and the selection is spent; while `p_fail` is set `err(2)`. -/
def Periph.takeRead (cfg : Config) (n : Nat) (p : Periph) : ReadResult × Periph :=
  if p.fail then (.err 2, p)
  else
    match p.selectedByte with
    | none => (.ok ((p.keydataBytes cfg).take n), p)
    | some v => (.ok (v :: List.replicate (n - 1) 0xFF), { p with sel := .none })

/-! ## The environment's turn (R53, R58) -/

/-- A free non-zero status, and the state with the next free value ahead (assumption log 12). -/
def freeNonzero (s : State) : Byte × State :=
  (BitVec.ofNat 8 ((Config.freeStatus s.freeCtr).val + 1), s.withFreeCtr (s.freeCtr + 1))

/-- The environment moves before a transaction: the next pending turn is taken, either peripheral may have become
anything, and its answer is returned; where none is pending the reference responder answers (assumption log 5). -/
def takeTurn (s : State) : Answer × State :=
  match s.turns with
  | [] => (.responder, s)
  | t :: rest =>
    (t.answer, (s.withTurns rest).withPeriph ⟨t.left.getD s.periph.left, t.right.getD s.periph.right⟩)

/-- Hand h's peripheral has become p. -/
def State.withPeripheral (s : State) (h : Hand) (p : Periph) : State := s.withPeriph (s.periph.set h p)

/-- The reference responder's answer to a write to a device; a device that is neither hand's returns a free non-zero
status (R67). DESIGN CHOICE, unsafe: `power_en` is not looked at, so a peripheral answers before SETUP has enabled the
rails too, of which the spec says nothing (60_exceptions.md R225; assumption log 29). -/
def respondWrite (dev : BitVec 7) (bytes : List Byte) (s : State) : Byte × State :=
  match handOfDev s.cfg dev with
  | none => freeNonzero s
  | some h =>
    (((s.periph.get h).takeWrite s.cfg dev bytes).1,
      s.withPeripheral h ((s.periph.get h).takeWrite s.cfg dev bytes).2)

/-- The reference responder's answer to a read from a device; a device that is neither hand's returns `err(2)` (R67). -/
def respondRead (dev : BitVec 7) (n : Nat) (s : State) : ReadResult × State :=
  match handOfDev s.cfg dev with
  | none => (.err 2, s)
  | some h =>
    (((s.periph.get h).takeRead s.cfg n).1, s.withPeripheral h ((s.periph.get h).takeRead s.cfg n).2)

/-- What a read of n bytes returns when the environment answers with a status and bytes of its own: `err` for a non-zero
status; `err` with a free non-zero status for fewer than n bytes; else `ok` with exactly n bytes (R52). -/
def forcedRead (n : Nat) (status : Byte) (bytes : List Byte) (s : State) : ReadResult × State :=
  if status ≠ 0 then (.err status, s)
  else if bytes.length < n then (.err (freeNonzero s).1, (freeNonzero s).2)
  else (.ok (bytes.take n), s)

/-! ## Bus transactions (R51, R52, R54) -/

/-- What running part of an operation gives: a value and the state so far, or the state at a transaction that never
returned. -/
inductive BusRun (α : Type) where
  | returned (a : α) (s : State)
  | hung (s : State)
deriving Repr

/-- Run one part after another; a hang ends the whole (R215). -/
def BusRun.andThen {α β : Type} (m : BusRun α) (k : α → State → BusRun β) : BusRun β :=
  match m with
  | .returned a s => k a s
  | .hung s => .hung s

/-- The state with one more transaction in the history (10_state.md R27). -/
def State.logged (s : State) (t : Transaction) : State := s.withBusLog (s.busLog ++ [t])

/-- A write that returned this status: it enters the history. -/
def writeReturned (dev : BitVec 7) (bytes : List Byte) (a : Byte × State) : BusRun Byte :=
  .returned a.1 (a.2.logged (.write dev bytes a.1))

/-- A read that returned this result: it enters the history. -/
def readReturned (dev : BitVec 7) (n : Nat) (a : ReadResult × State) : BusRun ReadResult :=
  .returned a.1 (a.2.logged (.read dev n a.1))

/-- `BusWrite(dev, bytes)`: one blocking write transaction (R51), answered as the environment's turn says. DESIGN CHOICE,
unsafe: a status of the environment's own, 0 too, delivers no frame by itself: what the write did to the peripheral (all,
part or none of it, 93 U8) is what the turn has made of the peripheral (assumption log 31). -/
def busWrite (dev : BitVec 7) (bytes : List Byte) (s : State) : BusRun Byte :=
  match (takeTurn s).1 with
  | .hang => .hung (takeTurn s).2
  | .forced status _ => writeReturned dev bytes (status, (takeTurn s).2)
  | .responder => writeReturned dev bytes (respondWrite dev bytes (takeTurn s).2)

/-- `BusRead(dev, n)`: one blocking read transaction (R52), answered as the environment's turn says. DESIGN CHOICE, unsafe:
an answer of the environment's own spends no pending selection by itself; the turn may have changed it (10_state.md R30 b;
assumption log 31). -/
def busRead (dev : BitVec 7) (n : Nat) (s : State) : BusRun ReadResult :=
  match (takeTurn s).1 with
  | .hang => .hung (takeTurn s).2
  | .forced status bytes => readReturned dev n (forcedRead n status bytes (takeTurn s).2)
  | .responder => readReturned dev n (respondRead dev n (takeTurn s).2)

/-! ## The end of an operation -/

/-- A transaction that never returns leaves the block stuck in the middle of the operation, with every write before it
done and no result (60_exceptions.md R215; assumption log 7). -/
def State.stuck (s : State) : State := (s.withHung true).withResult .none

/-- The outcome of an operation's run: its result on the host port, or the stuck block. -/
def finish (m : BusRun Result) : Host.Outcome State Fault Refusal :=
  match m with
  | .returned r s => .next (s.withResult r)
  | .hung s => .next s.stuck

/-! ## Admission (43_system_ops.md R194) -/

/-- An ill-formed configuration has no meaning: nothing runs under it, and the run is refused (00_scope.md R4, 93 U15;
assumption log 27). -/
def whenConfigured (s : State) (run : Host.Outcome State Fault Refusal) : Host.Outcome State Fault Refusal :=
  if configOk s.cfg then run else .refused .illFormedConfig

/-- Admission of `setup`: a well-formed configuration, no transaction that never returned (60_exceptions.md R215), and
`halted = 0`. DESIGN CHOICE, safe: the reasons are named in this order (assumption log 25). -/
def whenLive (s : State) (run : Host.Outcome State Fault Refusal) : Host.Outcome State Fault Refusal :=
  whenConfigured s (if s.hung then .refused .blockStuck else if s.halted then .refused .blockHalted else run)

/-- Admission of every other operation: `initialized = 1` as well. A bare bus transaction is held to the same rule, since
the block does nothing until `setup` (70_reset_and_hazards.md R240; assumption log 9). -/
def whenAdmitted (s : State) (run : Host.Outcome State Fault Refusal) : Host.Outcome State Fault Refusal :=
  whenLive s (if s.initialized then run else .refused .beforeSetup)

/-! ## Reset (70_reset_and_hazards.md R241) -/

/-- The watchdog reset: the three mode bits are cleared, every other register of the block holds an unspecified value (a
free value, assumption log 4), the history and the peripherals are kept; the pending inputs stay and the host port is
empty (assumption log 20). -/
@[simps] def State.watchdogReset (s : State) : State where
  cfg := s.cfg
  currScan := Config.freeCurrScan s.freeCtr
  prevScan := Config.freePrevScan s.freeCtr
  evPos := Config.freeEvPos s.freeCtr
  lastFlush := Config.freeLastFlush s.freeCtr % 2 ^ s.cfg.timerBits
  initialized := false
  halted := false
  fb := Config.freeFb s.freeCtr
  dirty := Config.freeDirty s.freeCtr
  cursor := Config.freeCursor s.freeCtr
  powerEn := false
  busLog := s.busLog
  msNow := s.msNow
  overcurrent := s.overcurrent
  result := .none
  hung := false
  inbox := s.inbox
  turns := s.turns
  periph := s.periph
  freeCtr := s.freeCtr + 1

/-- What an input that is no instruction does: it changes an input pin or the environment, or restarts the block. An
instruction on a port is fetched by `step` and changes nothing here. -/
def takeInput (s : State) : Input → State
  | .packet _ => s
  | .time t => s.withMsNow t
  | .overcurrent b => s.withOvercurrent b
  | .keys h w => s.withPeripheral h { s.periph.get h with keys := w }
  | .fail h b => s.withPeripheral h { s.periph.get h with fail := b }
  | .turn t => s.withTurns (s.turns ++ [t])
  | .watchdog => s.watchdogReset

end Sys2Proof.Machine
end

