-- ==== Sys2Proof/Machine/BusFrames.lean ====
section
/-! DEFINITION. The bus frames and replies of the opcode table as instructions (spec/30_encoding.md R81 to R87, R89):
each is one whole bus transaction of the transceiver taken alone (20_memory.md R50 to R54; assumption log 9). A write
frame is sent to its device and the host port shows the raw status; a reply is what the environment answers to a read of
its length that the transceiver issues to its device, and the host port shows what the transceiver makes of it. Only well
formed ones are issued (40_bus_transceiver.md R128), and none before SETUP (70_reset_and_hazards.md R240). -/

namespace Sys2Proof.Machine

/-- A bare transaction is issued only by a block that SETUP has initialised, since before it the block does nothing
(70_reset_and_hazards.md R240), and only if it is well formed: to one of the two devices (20_memory.md R43), with the
reserved bits of its index byte 0 (R81; assumption log 30; admission is looked at first, log 25). -/
def whenIssued (i : Instr) (s : State) (run : Host.Outcome State Fault Refusal) : Host.Outcome State Fault Refusal :=
  whenAdmitted s (if i.wellFormed s.cfg then run else .refused .illFormedTransaction)

/-- One write transaction with this frame, on its own. -/
def frameTransaction (dev : BitVec 7) (bytes : List Byte) (s : State) : Host.Outcome State Fault Refusal :=
  finish ((busWrite dev bytes s).andThen fun st s1 => .returned (.status st) s1)

/-- LED_SET_ONE (R81, R61). -/
def execLedSetOne (dev : BitVec 7) (index : Byte) (w : Bgr) (s : State) : Host.Outcome State Fault Refusal :=
  whenIssued (.ledSetOne dev index w) s (frameTransaction dev (ledSetOneFrame s.cfg index w) s)

/-- LED_SET_ALL (R82, R62). -/
def execLedSetAll (dev : BitVec 7) (w : Bgr) (s : State) : Host.Outcome State Fault Refusal :=
  whenIssued (.ledSetAll dev w) s (frameTransaction dev (ledSetAllFrame s.cfg w) s)

/-- LED_BANK n (R83, R63). -/
def execLedBank (dev : BitVec 7) (n : BitVec 2) (ws : Vector Bgr 8) (s : State) : Host.Outcome State Fault Refusal :=
  whenIssued (.ledBank dev n ws) s (frameTransaction dev (ledBankFrame s.cfg n ws) s)

/-- KEYSCAN_INTERVAL (R84, R64). -/
def execKeyscanInterval (dev : BitVec 7) (v : Byte) (s : State) : Host.Outcome State Fault Refusal :=
  whenIssued (.keyscanInterval dev v) s (frameTransaction dev (keyscanIntervalFrame s.cfg v) s)

/-- LED_SPI_FREQUENCY (R85, R64). -/
def execLedSpiFrequency (dev : BitVec 7) (v : Byte) (s : State) : Host.Outcome State Fault Refusal :=
  whenIssued (.ledSpiFrequency dev v) s (frameTransaction dev (ledSpiFrequencyFrame s.cfg v) s)

/-- REGSEL.VERSION (R86, R65). -/
def execRegselVersion (dev : BitVec 7) (s : State) : Host.Outcome State Fault Refusal :=
  whenIssued (.regselVersion dev) s (frameTransaction dev [s.cfg.cmdVersion] s)

/-- REGSEL.KSI (R86, R65). -/
def execRegselKsi (dev : BitVec 7) (s : State) : Host.Outcome State Fault Refusal :=
  whenIssued (.regselKsi dev) s (frameTransaction dev [s.cfg.cmdKeyscanInterval] s)

/-- REGSEL.SPI (R86, R65). -/
def execRegselSpi (dev : BitVec 7) (s : State) : Host.Outcome State Fault Refusal :=
  whenIssued (.regselSpi dev) s (frameTransaction dev [s.cfg.cmdLedSpiFrequency] s)

/-- One read transaction of the length of this reply, which the environment answers with this reply: the block has no
other way to receive (40_bus_transceiver.md R128). `shown` is what the transceiver makes of the answer. -/
def replyTransaction (dev : BitVec 7) (bytes : List Byte) (shown : ReadResult → Result) (s : State) :
    Host.Outcome State Fault Refusal :=
  finish ((busRead dev bytes.length (s.withTurns (⟨none, none, .forced 0 bytes⟩ :: s.turns))).andThen fun r s1 =>
    .returned (shown r) s1)

/-- KEYDATA (R87, R47): the scan word of the four bank bytes. -/
def execKeydata (dev : BitVec 7) (b0 b1 b2 b3 : Byte) (s : State) : Host.Outcome State Fault Refusal :=
  whenIssued (.keydata dev b0 b1 b2 b3) s
    (replyTransaction dev (keydataReply s.cfg b0 b1 b2 b3) (fun r => .optScan (keyDataOf s.cfg r)) s)

/-- REG (R89): the register's byte. -/
def execReg (dev : BitVec 7) (v : Byte) (s : State) : Host.Outcome State Fault Refusal :=
  whenIssued (.reg dev v) s (replyTransaction dev [v] (fun r => .optByte (registerByteOf r)) s)

end Sys2Proof.Machine
end

