-- ==== Sys2Proof/Machine/Transceiver.lean ====
section
/-! DEFINITION. The two-wire serial protocol transceiver operations (spec/40_bus_transceiver.md): S.RDKEYS, S.SETKSI,
S.SETSPI, S.RDVER, S.RDKSI, S.RDSPI. None writes a register of the block; each issues each of its transactions exactly
once (R127). -/

namespace Sys2Proof.Machine

/-- `readKeys()` (R120): one 5-byte read; a bus error or a wrong tag gives none. -/
def readKeys (h : Hand) (s : State) : BusRun (Option Scan) :=
  (busRead (devAddr s.cfg h) 5 s).andThen fun r s1 => .returned (keyDataOf s.cfg r) s1

/-- `setKeyscanInterval(value)` on one hand (R121): the raw status. -/
def writeKeyscanInterval (h : Hand) (v : Byte) (s : State) : BusRun Byte :=
  busWrite (devAddr s.cfg h) (keyscanIntervalFrame s.cfg v) s

/-- `setLedSpiFrequency(value)` (R122): the raw status. -/
def writeLedSpiFrequency (h : Hand) (v : Byte) (s : State) : BusRun Byte :=
  busWrite (devAddr s.cfg h) (ledSpiFrequencyFrame s.cfg v) s

/-- `readRegister(h, sel)` (R123): a 1-byte select write, and only if its status is 0 a 1-byte read. -/
def readRegister (h : Hand) (sel : Byte) (s : State) : BusRun (Option Byte) :=
  (busWrite (devAddr s.cfg h) [sel] s).andThen fun status s1 =>
    if writeSucceeded status then
      (busRead (devAddr s.cfg h) 1 s1).andThen fun r s2 => .returned (registerByteOf r) s2
    else .returned none s1

/-- S.RDKEYS (R120). -/
def execSRdkeys (h : Hand) (s : State) : Host.Outcome State Fault Refusal :=
  whenAdmitted s (finish ((readKeys h s).andThen fun d s1 => .returned (.optScan d) s1))

/-- S.SETKSI (R121). -/
def execSSetksi (h : Hand) (v : Byte) (s : State) : Host.Outcome State Fault Refusal :=
  whenAdmitted s (finish ((writeKeyscanInterval h v s).andThen fun st s1 => .returned (.status st) s1))

/-- S.SETSPI (R122). -/
def execSSetspi (h : Hand) (v : Byte) (s : State) : Host.Outcome State Fault Refusal :=
  whenAdmitted s (finish ((writeLedSpiFrequency h v s).andThen fun st s1 => .returned (.status st) s1))

/-- S.RDVER: `readRegister(h, CMD_VERSION)` (R124). -/
def execSRdver (h : Hand) (s : State) : Host.Outcome State Fault Refusal :=
  whenAdmitted s (finish ((readRegister h s.cfg.cmdVersion s).andThen fun v s1 => .returned (.optByte v) s1))

/-- S.RDKSI: `readRegister(h, CMD_KEYSCAN_INTERVAL)` (R125). -/
def execSRdksi (h : Hand) (s : State) : Host.Outcome State Fault Refusal :=
  whenAdmitted s (finish ((readRegister h s.cfg.cmdKeyscanInterval s).andThen fun v s1 => .returned (.optByte v) s1))

/-- S.RDSPI: `readRegister(h, CMD_LED_SPI_FREQUENCY)` (R126). -/
def execSRdspi (h : Hand) (s : State) : Host.Outcome State Fault Refusal :=
  whenAdmitted s (finish ((readRegister h s.cfg.cmdLedSpiFrequency s).andThen fun v s1 => .returned (.optByte v) s1))

end Sys2Proof.Machine
end

