-- ==== Sys2Proof/Machine/KeyScan.lean ====
section
/-! DEFINITION. The keyswitch debounce and edge detector operations (spec/41_key_scan_edge.md): SCANM and NEXTEV. The
block holds no debounce state (R145): a failed read leaves the hand's snapshot as it was. -/

namespace Sys2Proof.Machine

/-- `if r is some(d): curr_scan[h] <- d` (R140). -/
def storeScan (h : Hand) (d : Option Scan) (s : State) : State :=
  match d with
  | some d => s.withCurrScan (s.currScan.set h d)
  | none => s

/-- `scanMatrix()` (R140): save the snapshots, read left then right whatever the left gave, restart the iterator. -/
def scanMatrix (s : State) : BusRun Unit :=
  (readKeys .left (s.withPrevScan s.currScan)).andThen fun d0 s1 =>
    (readKeys .right (storeScan .left d0 s1)).andThen fun d1 s2 =>
      .returned () ((storeScan .right d1 s2).withEvPos 0)

/-- SCANM (R140). -/
def execScanm (s : State) : Host.Outcome State Fault Refusal :=
  whenAdmitted s (finish ((scanMatrix s).andThen fun _ s1 => .returned .none s1))

/-- The event of key k between two snapshots: both states are read from them (R141). -/
def keyEvent (curr prev : Pair Scan) (k : BitVec 6) : KeyEvent := ⟨k, keybit prev k, keybit curr k⟩

/-- The events of a scan cycle, `events(curr_scan, prev_scan)`, in ascending KeyAddr order (R141, R144). -/
def scanEvents (curr prev : Pair Scan) : List KeyEvent :=
  (List.range 64).filterMap fun k =>
    if keyChanged curr prev (BitVec.ofNat 6 k) then some (keyEvent curr prev (BitVec.ofNat 6 k)) else none

/-- At the first key of a bank whose byte did not change (R142: one comparison of two bytes). -/
def atUnchangedBank (curr prev : Pair Scan) (k : BitVec 6) : Bool :=
  keyBitpos k == 0 && globalBank curr (keyGlobalBank k) == globalBank prev (keyGlobalBank k)

/-- The loop of `nextEvent()` (R142) from position `pos`: the new position and the event found, if any. At the first key
of a bank whose byte did not change the whole bank is skipped. `fuel` bounds the rounds: each advances by at least one
key and the loop ends at 64. -/
def nextEventFrom (curr prev : Pair Scan) : Nat → Nat → Nat × Option KeyEvent
  | 0, pos => (pos, none)
  | fuel + 1, pos =>
    if pos < 64 then
      if atUnchangedBank curr prev (BitVec.ofNat 6 pos) then nextEventFrom curr prev fuel (pos + 8)
      else if keyChanged curr prev (BitVec.ofNat 6 pos) then
        (pos + 1, some (keyEvent curr prev (BitVec.ofNat 6 pos)))
      else nextEventFrom curr prev fuel (pos + 1)
    else (pos, none)

/-- `nextEvent()` on the machine's snapshots and iterator (R142). -/
def nextEvent (s : State) : Nat × Option KeyEvent := nextEventFrom s.currScan s.prevScan 64 s.evPos.toNat

/-- NEXTEV (R142): only `ev_pos` is written. -/
def execNextev (s : State) : Host.Outcome State Fault Refusal :=
  whenAdmitted s (.next ((s.withEvPos (BitVec.ofNat 7 (nextEvent s).1)).withResult (.optEvent (nextEvent s).2)))

end Sys2Proof.Machine
end

