-- ==== Sys2Proof/Machine/LedSync.lean ====
section
/-! DEFINITION. The LED frame-buffer synchroniser operations (spec/42_led_sync.md): S.SETLC, S.GETLC, SETKC, GETKC,
S.UPDBANK, UPDLEDS, S.UPDLED, S.UPDALL. An out-of-range address ends the operation before any table lookup and any bus
traffic (60_exceptions.md R213). -/

namespace Sys2Proof.Machine

/-! ## Frame buffer access, no bus traffic (R160, R161, R165, R166, R170) -/

/-- The write `fb[h][i] <- q(c)`. -/
def storeLed (h : Hand) (i : BitVec 5) (c : Color) (s : State) : State :=
  s.withFb (s.fb.set h (setLed (s.fb.get h) i (quantise s.cfg c)))

/-- `setLedColor(h, i, c)` for a valid index (R160): a colour that differs is stored and its bank marked. -/
def setLedColor (h : Hand) (i : BitVec 5) (c : Color) (s : State) : State :=
  if ledAt (s.fb.get h) i = quantise s.cfg c then s
  else (storeLed h i c s).withDirty (s.dirty.set h (markDirty (s.dirty.get h) (ledBankOf i)))

/-- `getLedColor(h, i)` for a valid index (R161). -/
def getLedColor (h : Hand) (i : BitVec 5) (s : State) : Color := ledAt (s.fb.get h) i

/-- S.SETLC (R160). -/
def execSSetlc (h : Hand) (i : Byte) (c : Color) (s : State) : Host.Outcome State Fault Refusal :=
  whenAdmitted s <|
    match indexOperand i with
    | some i => .next ((setLedColor h i c s).withResult .none)
    | none => .next (s.withResult .none)

/-- S.GETLC (R161). -/
def execSGetlc (h : Hand) (i : Byte) (s : State) : Host.Outcome State Fault Refusal :=
  whenAdmitted s (.next (s.withResult (.optColor ((indexOperand i).map fun i => getLedColor h i s))))

/-- `setKeyColor(k, c)` for a valid KeyAddr (R165, R170): the LED's hand and index come from the table. -/
def setKeyColor (k : BitVec 6) (c : Color) (s : State) : State :=
  setLedColor (ledHand (ledOfKey s.cfg k)) (ledIndex (ledOfKey s.cfg k)) c s

/-- `getKeyColor(k)` for a valid KeyAddr (R166, R170). -/
def getKeyColor (k : BitVec 6) (s : State) : Color :=
  getLedColor (ledHand (ledOfKey s.cfg k)) (ledIndex (ledOfKey s.cfg k)) s

/-- SETKC (R165). -/
def execSetkc (k : Byte) (c : Color) (s : State) : Host.Outcome State Fault Refusal :=
  whenAdmitted s <|
    match keyOperand k with
    | some k => .next ((setKeyColor k c s).withResult .none)
    | none => .next (s.withResult .none)

/-- GETKC (R166). -/
def execGetkc (k : Byte) (s : State) : Host.Outcome State Fault Refusal :=
  whenAdmitted s (.next (s.withResult (.optColor ((keyOperand k).map fun k => getKeyColor k s))))

/-! ## Flushing (R162, R167, R163, R164) -/

/-- `cursor[h] <- (cursor[h] + 1) mod 4` (R162). -/
def advanceCursor (h : Hand) (s : State) : State := s.withCursor (s.cursor.set h (s.cursor.get h + 1))

/-- `dirty[h][n] <- 0` (R162). -/
def cleanBank (h : Hand) (n : BitVec 2) (s : State) : State :=
  s.withDirty (s.dirty.set h (markClean (s.dirty.get h) n))

/-- The bytes of the frame that sends bank n of hand h as the frame buffer holds it now (R83, R162). -/
def bankFrameNow (h : Hand) (n : BitVec 2) (s : State) : List Byte :=
  ledBankFrame s.cfg n (bankWire s.cfg (s.fb.get h) n)

/-- The selected bank is sent if it is dirty; its bit is cleared whatever the status (R162). -/
def flushSelected (h : Hand) (s : State) : BusRun Unit :=
  if isDirty (s.dirty.get h) (s.cursor.get h) then
    (busWrite (devAddr s.cfg h) (bankFrameNow h (s.cursor.get h) s) s).andThen fun _ s1 =>
      .returned () (cleanBank h (s.cursor.get h) s1)
  else .returned () s

/-- `updateNextLedBank()` (R162): advance the cursor, then flush the bank it selects. -/
def updateNextLedBank (h : Hand) (s : State) : BusRun Unit := flushSelected h (advanceCursor h s)

/-- `updateLeds()` (R167): gated by the rate limiter; when it fires, one flush step of each hand, left first. -/
def updateLeds (s : State) : BusRun Unit :=
  if flushDue s.cfg (timeSample s.cfg s.msNow) s.lastFlush then
    (updateNextLedBank .left (s.withLastFlush (timeSample s.cfg s.msNow))).andThen fun _ s1 =>
      updateNextLedBank .right s1
  else .returned () s

/-- `updateLed(i, c)` for a valid index (R163): the frame, then the frame buffer whatever the status. -/
def updateLed (h : Hand) (i : BitVec 5) (c : Color) (s : State) : BusRun Byte :=
  (busWrite (devAddr s.cfg h) (ledSetOneFrame s.cfg (i.setWidth 8) (wire s.cfg (quantise s.cfg c))) s).andThen
    fun status s1 => .returned status (storeLed h i c s1)

/-- The state after `fb[h][i] <- q(c)` for all i and `dirty[h][n] <- 0` for all n (R164). -/
def fillLeds (h : Hand) (c : Color) (s : State) : State :=
  (s.withFb (s.fb.set h (Vector.replicate 32 (quantise s.cfg c)))).withDirty (s.dirty.set h 0)

/-- `updateAllLeds(c)` (R164): the broadcast frame, then frame buffer and dirty bits whatever the status. -/
def updateAllLeds (h : Hand) (c : Color) (s : State) : BusRun Byte :=
  (busWrite (devAddr s.cfg h) (ledSetAllFrame s.cfg (wire s.cfg (quantise s.cfg c))) s).andThen
    fun status s1 => .returned status (fillLeds h c s1)

/-- S.UPDBANK (R162). -/
def execSUpdbank (h : Hand) (s : State) : Host.Outcome State Fault Refusal :=
  whenAdmitted s (finish ((updateNextLedBank h s).andThen fun _ s1 => .returned .none s1))

/-- UPDLEDS (R167). -/
def execUpdleds (s : State) : Host.Outcome State Fault Refusal :=
  whenAdmitted s (finish ((updateLeds s).andThen fun _ s1 => .returned .none s1))

/-- S.UPDLED (R163). -/
def execSUpdled (h : Hand) (i : Byte) (c : Color) (s : State) : Host.Outcome State Fault Refusal :=
  whenAdmitted s <|
    match indexOperand i with
    | some i => finish ((updateLed h i c s).andThen fun st s1 => .returned (.optByte (some st)) s1)
    | none => .next (s.withResult (.optByte none))

/-- S.UPDALL (R164). -/
def execSUpdall (h : Hand) (c : Color) (s : State) : Host.Outcome State Fault Refusal :=
  whenAdmitted s (finish ((updateAllLeds h c s).andThen fun st s1 => .returned (.status st) s1))

end Sys2Proof.Machine
end

