-- ==== Sys2Proof/Machine/System.lean ====
section
/-! DEFINITION. The system operations (spec/43_system_ops.md): SETUP, SETKSI, LEDPF, REBOOT. -/

namespace Sys2Proof.Machine

/-- The part of `setup` before its first transaction: power on, snapshots and iterator cleared, Scanner operations
admitted (R190). Configuring the bus clock from `BUS_CLOCK_DIVISOR` changes no state of the spec (assumption log 17). -/
def setupRegisters (s : State) : State :=
  ((((s.withPowerEn true).withCurrScan (Pair.both 0)).withPrevScan (Pair.both 0)).withEvPos 64).withInitialized true

/-- The part of `setup` after its last transaction: cursors and time stamp (R190). -/
def setupTimers (s : State) : State :=
  (s.withCursor (Pair.both 0)).withLastFlush (timeSample s.cfg s.msNow)

/-- `setup()` (R190): both broadcasts of black are sent, left first, statuses ignored. -/
def setupBlock (s : State) : BusRun Unit :=
  (updateAllLeds .left Color.black (setupRegisters s)).andThen fun _ s1 =>
    (updateAllLeds .right Color.black s1).andThen fun _ s2 => .returned () (setupTimers s2)

/-- SETUP (R190): admitted whenever the block is not halted, a second time too. -/
def execSetup (s : State) : Host.Outcome State Fault Refusal :=
  whenLive s (finish ((setupBlock s).andThen fun _ s1 => .returned .none s1))

/-- SETKSI (R191): both hands, left first, the right one whatever the left's status; the status pair. -/
def execSetksi (v : Byte) (s : State) : Host.Outcome State Fault Refusal :=
  whenAdmitted s <| finish <|
    (writeKeyscanInterval .left v s).andThen fun st0 s1 =>
      (writeKeyscanInterval .right v s1).andThen fun st1 s2 => .returned (.statusPair st0 st1) s2

/-- LEDPF (R192): the overcurrent input, nothing else. -/
def execLedpf (s : State) : Host.Outcome State Fault Refusal :=
  whenAdmitted s (.next (s.withResult (.bool s.overcurrent)))

/-- REBOOT (R199): the block halts; storing the boot magic and arming the watchdog are outside the block. -/
def execReboot (s : State) : Host.Outcome State Fault Refusal :=
  whenAdmitted s (.next ((s.withHalted true).withResult .none))

end Sys2Proof.Machine
end

