-- ==== Sys2Proof/Machine/Dispatch.lean ====
section
/-! DEFINITION. One arm per constructor of `Instr`: each instruction's meaning. -/

namespace Sys2Proof.Machine

def exec (i : Instr) (s : State) : Host.Outcome State Fault Refusal :=
  match i with
  | .setup => Sys2Proof.Machine.execSetup s
  | .scanm => Sys2Proof.Machine.execScanm s
  | .nextev => Sys2Proof.Machine.execNextev s
  | .updleds => Sys2Proof.Machine.execUpdleds s
  | .setkc k c => Sys2Proof.Machine.execSetkc k c s
  | .getkc k => Sys2Proof.Machine.execGetkc k s
  | .setksi v => Sys2Proof.Machine.execSetksi v s
  | .ledpf => Sys2Proof.Machine.execLedpf s
  | .reboot => Sys2Proof.Machine.execReboot s
  | .sRdkeys h => Sys2Proof.Machine.execSRdkeys h s
  | .sSetlc h idx c => Sys2Proof.Machine.execSSetlc h idx c s
  | .sGetlc h idx => Sys2Proof.Machine.execSGetlc h idx s
  | .sUpdbank h => Sys2Proof.Machine.execSUpdbank h s
  | .sUpdled h idx c => Sys2Proof.Machine.execSUpdled h idx c s
  | .sUpdall h c => Sys2Proof.Machine.execSUpdall h c s
  | .sSetksi h v => Sys2Proof.Machine.execSSetksi h v s
  | .sSetspi h v => Sys2Proof.Machine.execSSetspi h v s
  | .sRdver h => Sys2Proof.Machine.execSRdver h s
  | .sRdksi h => Sys2Proof.Machine.execSRdksi h s
  | .sRdspi h => Sys2Proof.Machine.execSRdspi h s
  | .ledSetOne dev idx w => Sys2Proof.Machine.execLedSetOne dev idx w s
  | .ledSetAll dev w => Sys2Proof.Machine.execLedSetAll dev w s
  | .ledBank dev n ws => Sys2Proof.Machine.execLedBank dev n ws s
  | .keyscanInterval dev v => Sys2Proof.Machine.execKeyscanInterval dev v s
  | .ledSpiFrequency dev v => Sys2Proof.Machine.execLedSpiFrequency dev v s
  | .regselVersion dev => Sys2Proof.Machine.execRegselVersion dev s
  | .regselKsi dev => Sys2Proof.Machine.execRegselKsi dev s
  | .regselSpi dev => Sys2Proof.Machine.execRegselSpi dev s
  | .keydata dev a b c d => Sys2Proof.Machine.execKeydata dev a b c d s
  | .reg dev v => Sys2Proof.Machine.execReg dev v s

end Sys2Proof.Machine
end

