-- ==== Sys2Proof/Machine/Step.lean ====
section
/-! DEFINITION. One step of the machine: it takes the oldest input. An instruction on a port is decoded and executed
(spec/00_scope.md R5: one operation, start to finish); any other input changes a pin or the environment, or restarts the
block. With no input the block does nothing (70_reset_and_hazards.md R240), unless it is stuck or spinning, when it makes
no further step (93 U9, U10). Under an ill-formed configuration no step has a meaning, and each is refused (00_scope.md R4,
93 U15). -/

namespace Sys2Proof.Machine

/-- The inbox after an instruction was fetched from the head of a packet: what is left of the packet stays in front. -/
def restOfInbox (left : Option Packet) (inbox : List Input) : List Input :=
  match left with
  | some p => .packet p :: inbox
  | none => inbox

/-- One step; that the configuration is well formed is looked at on every path, on an instruction's by its meaning.
DESIGN CHOICE, safe: a packet that R104 (30_encoding.md) refuses is named undecodable on a stuck, halted or uninitialised
block too, but not under an ill-formed configuration; the spec gives refusals no order (assumption log 25). -/
def step (s : State) : Host.Outcome State Fault Refusal :=
  match s.inbox with
  | [] =>
    whenConfigured s <|
      if s.hung then .fault .stuckInTransaction else if s.halted then .fault .spinningForReboot else .next s
  | .packet p :: rest =>
    match decode s.cfg p with
    | .ok (i, left) => exec i (s.withInbox (restOfInbox left rest))
    | .error e => whenConfigured s (.refused (.undecodable e))
  | i :: rest => whenConfigured s (.next (takeInput (s.withInbox rest) i))

/-- What the port needs so that a packet put on it runs: every instruction but SETUP waits for `initialized`
(43_system_ops.md R194, 70_reset_and_hazards.md R240), which a SETUP run before it has set (assumption log 16). -/
def State.admitting (s : State) : Packet → State
  | .host (0x00#8 :: _) => s
  | .host _ => s.withInitialized true
  | .busWrite _ _ => s.withInitialized true
  | .busRead _ _ => s.withInitialized true

/-- The state with the instruction of a table word as its oldest input: the host puts it on the port of its space, after
the SETUP that every other instruction needs (assumption log 16). -/
def State.withFetchWord (s : State) (nbits w : Nat) : State :=
  (s.admitting (tablePacket s.cfg nbits w)).withInbox (.packet (tablePacket s.cfg nbits w) :: s.inbox)

end Sys2Proof.Machine
end

