-- ==== Sys2Proof/Safety.lean ====
section
/-! DEFINITION. What counts as a good state and a good run, in the terms the statements use. -/

namespace Sys2Proof.Machine

/-- The block is neither stuck nor halted and its configuration is well formed: SETUP is admitted, and a bus transaction
can be issued (43_system_ops.md R194, 00_scope.md R4). -/
abbrev State.Live (s : State) : Prop := configOk s.cfg = true ∧ s.hung = false ∧ s.halted = false

/-- Every operation is admitted (43_system_ops.md R194). -/
abbrev State.Ready (s : State) : Prop := s.Live ∧ s.initialized = true

/-- The environment answers the next n transactions: none of them hangs (20_memory.md R58 c). -/
abbrev State.Answered (n : Nat) (s : State) : Prop := ∀ t ∈ s.turns.take n, t.answer ≠ .hang

/-- The status that the environment itself gives the n-th transaction from now (20_memory.md R58 a), where it gives one. -/
def State.forcedStatus (n : Nat) (s : State) : Option Byte :=
  match s.turns[n]? with
  | some ⟨_, _, .forced status _⟩ => some status
  | some ⟨_, _, .responder⟩ => none
  | some ⟨_, _, .hang⟩ => none
  | none => none

/-- The block stuck in a transaction, with no result (60_exceptions.md R215), and these turns still to come. -/
def State.stuckBefore (turns : List Turn) (s : State) : State := ((s.withTurns turns).withHung true).withResult .none

/-- Nothing of the environment is scripted: the reference responders answer (20_memory.md R60 to R67). -/
abbrev State.Unscripted (s : State) : Prop := s.turns = []

/-- The block's registers (10_state.md R10, without the history) agree, and so do the configuration, the inputs, the
pending inputs and the stuck bit: only the result, the history and the environment may differ. -/
structure SameBlock (s t : State) : Prop where
  cfg : t.cfg = s.cfg
  currScan : t.currScan = s.currScan
  prevScan : t.prevScan = s.prevScan
  evPos : t.evPos = s.evPos
  lastFlush : t.lastFlush = s.lastFlush
  initialized : t.initialized = s.initialized
  halted : t.halted = s.halted
  fb : t.fb = s.fb
  dirty : t.dirty = s.dirty
  cursor : t.cursor = s.cursor
  powerEn : t.powerEn = s.powerEn
  msNow : t.msNow = s.msNow
  overcurrent : t.overcurrent = s.overcurrent
  hung : t.hung = s.hung
  inbox : t.inbox = s.inbox

/-- The environment and the history agree: no transaction was issued. -/
structure NoBusTraffic (s t : State) : Prop where
  busLog : t.busLog = s.busLog
  turns : t.turns = s.turns
  periph : t.periph = s.periph
  freeCtr : t.freeCtr = s.freeCtr

/-- The invariant of 10_state.md R33 (with the range of `last_flush`, R20): it holds whenever `setup` has completed and
the block is not stuck in the middle of an operation. -/
def State.Inv (s : State) : Prop :=
  s.initialized = true → s.hung = false →
    s.evPos.toNat ≤ 64 ∧ s.lastFlush < 2 ^ s.cfg.timerBits ∧
      ∀ h i, quantise s.cfg (ledAt (s.fb.get h) i) = ledAt (s.fb.get h) i

/-- A transaction the block may issue: a whole frame of the command map to one of the two devices (30_encoding.md R96,
40_bus_transceiver.md R128), or a read of 5 bytes or of 1 byte (20_memory.md R50). -/
def Transaction.Framed (cfg : Config) : Transaction → Prop
  | .write dev bytes _ => ∃ i : Instr, i.wellFormed cfg = true ∧ encode cfg i = .busWrite dev bytes
  | .read dev n _ => deviceOk cfg dev = true ∧ (n = 5 ∨ n = 1)

/-- Every transaction in the history is one the block may issue. -/
def State.LogFramed (s : State) : Prop := ∀ t ∈ s.busLog, t.Framed s.cfg

/-- One instruction after another, ending at the first fault or refusal. -/
def execAll : List Instr → State → Host.Outcome State Fault Refusal
  | [], s => .next s
  | i :: rest, s =>
    match exec i s with
    | .next t => execAll rest t
    | .fault r => .fault r
    | .refused r => .refused r

/-- The outcome with its next state, if any, changed by f. -/
def mapNext (f : State → State) : Host.Outcome State Fault Refusal → Host.Outcome State Fault Refusal
  | .next t => .next (f t)
  | .fault r => .fault r
  | .refused r => .refused r

/-- The instructions that only flush (42_led_sync.md section 2): S.UPDBANK and UPDLEDS. -/
def isFlush : Instr → Bool
  | .sUpdbank _ | .updleds => true
  | .setup | .scanm | .nextev | .setkc _ _ | .getkc _ | .setksi _ | .ledpf | .reboot => false
  | .sRdkeys _ | .sSetlc _ _ _ | .sGetlc _ _ | .sUpdled _ _ _ | .sUpdall _ _ | .sSetksi _ _ | .sSetspi _ _ => false
  | .sRdver _ | .sRdksi _ | .sRdspi _ | .ledSetOne _ _ _ | .ledSetAll _ _ | .ledBank _ _ _ => false
  | .keyscanInterval _ _ | .ledSpiFrequency _ _ | .regselVersion _ | .regselKsi _ | .regselSpi _ => false
  | .keydata _ _ _ _ _ | .reg _ _ => false

/-- The instruction is one of the 20 host operations of 30_encoding.md R100. -/
def isOperation (i : Instr) : Prop := ∃ bytes, encode Config.default i = .host bytes

/-- The number of dirty banks of a mask. -/
def dirtyCount (mask : BitVec 4) : Nat := [0, 1, 2, 3].countP fun n : BitVec 2 => isDirty mask n

end Sys2Proof.Machine
end

