-- ==== Sys2Proof/Certificates/Slice0/Obligations.lean ====
section
/-! DEFINITION. The statements for the provers. Each is about the machine under every well-formed configuration and every
answer of the environment; the hypotheses are on the state and the operands. Where a statement speaks of the reference
responder or of another choice of the model, its docstring says so. -/

open Sys2Proof Sys2Proof.Machine

/-! ## Encoding -/

/-- Decoding what the encoder writes gives the instruction back, with every operand at every value, under every
well-formed configuration: host invocations (30_encoding.md R100), frames (R81 to R86, R88, R99), replies (R87, R89). -/
def Obligations.DecodeOfEncodeIsTheInstruction : Prop :=
  ∀ cfg : Config, configOk cfg = true → ∀ i : Instr, decode cfg (encode cfg i) = .ok (i, none)

/-- Words written out from the spec's encodings decode to their instructions (95_test_vectors.md V-ENC-9, 10, 12, 13, 14,
18). The numeric codes are the defaults, PRESUMED (assumption log 2). -/
def Obligations.WordsOfTheSpecDecode : Prop :=
  decode Config.default (.host [0x04, 9, 0x00, 0xFF, 0x00]) = .ok (.setkc 9 ⟨0, 0xFF, 0⟩, none) ∧
  decode Config.default (.host [0x14, 1, 0x1F, 0x10, 0x20, 0x30]) = .ok (.sUpdled .right 31 ⟨0x10, 0x20, 0x30⟩, none) ∧
  decode Config.default (.host [0x06, 0x32]) = .ok (.setksi 50, none) ∧
  decode Config.default (.host [0x19, 0x01]) = .ok (.sRdksi .right, none) ∧
  decode Config.default (.busWrite 0x5B [0x04, 0x1F, 0x09, 0x04, 0x01]) = .ok (.ledSetOne 0x5B 31 ⟨9, 4, 1⟩, none) ∧
  decode Config.default (.busWrite 0x58 [0x03, 0xFF, 0xFF, 0xFF]) = .ok (.ledSetAll 0x58 ⟨0xFF, 0xFF, 0xFF⟩, none) ∧
  decode Config.default (.busWrite 0x5B [0x02, 0x32]) = .ok (.keyscanInterval 0x5B 50, none) ∧
  decode Config.default (.busWrite 0x58 [0x06]) = .ok (.regselSpi 0x58, none) ∧
  decode Config.default (.busRead 0x58 [0x01, 0x20, 0, 0, 0]) = .ok (.keydata 0x58 0x20 0 0 0, none)

/-- When the oldest input is a packet that decodes to i, the step is i's meaning on the state whose inbox holds what is
left of the packet and the later inputs (00_scope.md R5; that surplus bytes of a host packet stay is the model's choice,
assumption log 11). -/
def Obligations.StepRunsTheDecodedInstruction : Prop :=
  ∀ (s : State) (p : Packet) (rest : List Input) (i : Instr) (left : Option Packet),
    s.inbox = .packet p :: rest → decode s.cfg p = .ok (i, left) →
      step s = exec i (s.withInbox (restOfInbox left rest))

/-- An invocation whose `opsel` is outside the table of R100, whose hand operand is neither 0 nor 1, or which has too few
operand bytes, is refused (30_encoding.md R104), in every state. That the refusal is named undecodable on a stuck, a halted
and an uninitialised block too, but not under an ill-formed configuration, is the model's choice (assumption log 25). -/
def Obligations.UndefinedInvocationsAreRefused : Prop :=
  ∀ (s : State) (bytes : List Byte) (rest : List Input), s.inbox = .packet (.host bytes) :: rest →
    ((∀ i tail, bytes ≠ (encode s.cfg i).bytes ++ tail ∨ ¬ isOperation i) →
      (∃ r, step s = .refused r) ∧ (configOk s.cfg = true → ∃ e, step s = .refused (.undecodable e))) ∧
    (configOk s.cfg = true →
      (∀ op args, bytes = op :: args → ¬ (op.toNat ≤ 0x08 ∨ 0x10 ≤ op.toNat ∧ op.toNat ≤ 0x1A) →
        step s = .refused (.undecodable .unknownOpsel)) ∧
      (∀ op a args, bytes = op :: a :: args → 0x10 ≤ op.toNat → op.toNat ≤ 0x1A → 2 ≤ a.toNat →
        step s = .refused (.undecodable .badHand)) ∧
      (∀ op, bytes = [op] → 0x10 ≤ op.toNat → op.toNat ≤ 0x1A → step s = .refused (.undecodable .missingOperand)))

/-- The formats of 30_encoding.md R101 on the host port: a raw status byte; a status pair, left first; a bool byte; the
optional values with their valid byte first and zeros for none; the scan word bank 0 first; and the event word: valid in
bit 15, the address in bits 13:8, the previous state in bit 1, the current state in bit 0, every other bit 0, all zero for
none. That zeros follow valid = 0 in an optional Color and an optional KeyswitchScan is the model's choice (assumption log
28): R101 says so of the optional byte and the event word only. -/
def Obligations.ResultFormats : Prop :=
  (∀ (st l r v : Byte) (b : Bool) (c : Color) (d : Scan),
    resultBytes (.status st) = [st] ∧ resultBytes (.statusPair l r) = [l, r] ∧
    resultBytes (.bool b) = [if b then 1 else 0] ∧
    resultBytes (.optByte (some v)) = [1, v] ∧ resultBytes (.optByte none) = [0, 0] ∧
    resultBytes (.optColor (some c)) = [1, c.r, c.g, c.b] ∧ resultBytes (.optColor none) = [0, 0, 0, 0] ∧
    resultBytes (.optScan (some d)) = [1, scanBank d 0, scanBank d 1, scanBank d 2, scanBank d 3] ∧
    resultBytes (.optScan none) = [0, 0, 0, 0, 0]) ∧
  eventWord none = 0 ∧
  ∀ e : KeyEvent,
    (eventWord (some e)).getLsbD 15 = true ∧ (eventWord (some e)).extractLsb' 8 6 = e.address ∧
    (eventWord (some e)).getLsbD 1 = e.previousState ∧ (eventWord (some e)).getLsbD 0 = e.currentState ∧
    (eventWord (some e)).getLsbD 14 = false ∧ (eventWord (some e)).extractLsb' 2 6 = 0

/-! ## Configuration -/

/-- The five conditions of 00_scope.md R4, in plain terms, are what the model checks; every instruction and every step, an
idle one and an input's too, is refused under a configuration that fails one of them (93_implementation_defined.md U15); the
default instance satisfies all five with the identity table. That this reason is named before an undecodable packet's and
before a stuck, a halted or an uninitialised block's is the model's choice (assumption log 25), and so are the refusal by
every step (log 27) and the identity table of the default instance (log 1). -/
def Obligations.ConfigurationIsCheckedByFiveConditions : Prop :=
  (∀ cfg : Config, configOk cfg = true ↔
    ([cfg.cmdVersion, cfg.cmdKeyscanInterval, cfg.cmdLedSetAll, cfg.cmdLedSetOne, cfg.cmdLedSpiFrequency,
        cfg.cmdLedBankBase, cfg.cmdLedBankBase + 1, cfg.cmdLedBankBase + 2, cfg.cmdLedBankBase + 3].Nodup ∧
      cfg.cmdLedBankBase.toNat + 3 ≤ 255) ∧
    (cfg.busAddrBase &&& cfg.rightSel = 0 ∧ cfg.rightSel ≠ 0) ∧
    Function.Bijective (ledOfKey cfg) ∧
    (∀ a b : Byte, a.toNat ≤ b.toNat → (gammaOf cfg a).toNat ≤ (gammaOf cfg b).toNat) ∧
    cfg.ledFlushIntervalMs < 2 ^ cfg.timerBits) ∧
  (∀ (i : Instr) (s : State), configOk s.cfg = false → exec i s = .refused .illFormedConfig) ∧
  (∀ s : State, configOk s.cfg = false → step s = .refused .illFormedConfig) ∧
  configOk Config.default = true ∧ ∀ k : BitVec 6, ledOfKey Config.default k = k

/-- The default instance satisfies all five conditions with `KEY_LED_MAP` = identity (00_scope.md R4), and its gamma table
is `floor((i*i + 127) / 255)` (42_led_sync.md R176, this spec's own choice of table). That Config.default holds the identity
table is the model's choice (assumption log 1). -/
def Obligations.DefaultConfigurationIsWellFormed : Prop :=
  configOk Config.default = true ∧ (∀ k : BitVec 6, ledOfKey Config.default k = k) ∧
    ∀ c : Byte, (gammaOf Config.default c).toNat = (c.toNat * c.toNat + 127) / 255

/-- In a well-formed configuration the two device addresses differ, and OR-ing the right-hand select adds it
(30_encoding.md R93, 00_scope.md R4 b). -/
def Obligations.DeviceAddressesDiffer : Prop :=
  ∀ cfg : Config, configOk cfg = true →
    devAddr cfg .left = cfg.busAddrBase ∧ devAddr cfg .right = cfg.busAddrBase ||| cfg.rightSel ∧
    devAddr cfg .left ≠ devAddr cfg .right ∧
    (devAddr cfg .right).toNat = (devAddr cfg .left).toNat + cfg.rightSel.toNat

/-- The key-to-LED translation and the hand-bit split reach each Scanner's each LED slot from exactly one key
(42_led_sync.md R170; property S1 of 95_test_vectors.md). -/
def Obligations.EveryLedSlotBelongsToOneKey : Prop :=
  ∀ cfg : Config, configOk cfg = true → ∀ (h : Hand) (i : BitVec 5),
    ∃ k : BitVec 6, (ledHand (ledOfKey cfg k) = h ∧ ledIndex (ledOfKey cfg k) = i) ∧
      ∀ k', ledHand (ledOfKey cfg k') = h → ledIndex (ledOfKey cfg k') = i → k' = k

/-- No step changes the configuration (00_scope.md R3: constant for a run; 10_state.md R23). -/
def Obligations.StepKeepsTheConfiguration : Prop :=
  ∀ s t : State, step s = .next t → t.cfg = s.cfg

/-! ## Scan words and colours -/

/-- The state bit of a key is the bit `bitpos` of its bank's byte of its hand's word, and bit `8 * bank + bitpos` of the
word (20_memory.md R45, R46). -/
def Obligations.KeybitIsTheBitOfItsBank : Prop :=
  ∀ (p : Pair Scan) (k : BitVec 6),
    keybit p k = (scanBank (p.get (keyHand k)) (keyBank k)).getLsbD (keyBitpos k).toNat ∧
    keybit p k = (p.get (keyHand k)).getLsbD (8 * (keyBank k).toNat + (keyBitpos k).toNat) ∧
    assembleKey (keyHand k) (keyBank k) (keyBitpos k) = k

/-- A 5-byte reply is key data exactly when its tag is the key-data tag, and then byte 1 + b is bank b of the word; any
other tag, and a bus error, deliver none whatever the bytes are (30_encoding.md R87, R97; 20_memory.md R47). -/
def Obligations.KeyReplyIsReadByItsTag : Prop :=
  ∀ (cfg : Config) (t b0 b1 b2 b3 st : Byte),
    (t ≠ cfg.replyKeydata → keyDataOf cfg (.ok [t, b0, b1, b2, b3]) = none) ∧ keyDataOf cfg (.err st) = none ∧
    (t = cfg.replyKeydata → ∃ d, keyDataOf cfg (.ok [t, b0, b1, b2, b3]) = some d ∧
      scanBank d 0 = b0 ∧ scanBank d 1 = b1 ∧ scanBank d 2 = b2 ∧ scanBank d 3 = b3 ∧
      d.toNat = b3.toNat * 2 ^ 24 + b2.toNat * 2 ^ 16 + b1.toNat * 2 ^ 8 + b0.toNat)

/-- The packed word has bit 15 zero and the channels' high five bits in the layout of 30_encoding.md R95; in rgb555 mode
the stored form is what the word reads back as, storing it again changes nothing, and expansion is the five bits shifted
left by 3 with their high three bits below, so that 31 gives 255 and 0 gives 0 (42_led_sync.md R181); in rgb888 mode the
stored form is the colour. -/
def Obligations.PackedColourReadsBack : Prop :=
  ∀ (cfg : Config) (c : Color),
    (packColor c).toNat = (c.b.toNat / 8) * 1024 + (c.g.toNat / 8) * 32 + c.r.toNat / 8 ∧
    (cfg.colorMode = .rgb555 → quantise cfg c = unpackColor (packColor c)) ∧
    (cfg.colorMode = .rgb888 → quantise cfg c = c) ∧
    quantise cfg (quantise cfg c) = quantise cfg c ∧
    (∀ x : BitVec 5, (expand5 x).toNat = 8 * x.toNat + x.toNat / 4) ∧ expand5 31 = 255 ∧ expand5 0 = 0

/-- A bank frame has 25 bytes: byte 0 is the base code plus n, and bytes 1+3j, 2+3j, 3+3j are the gamma-corrected blue,
green and red of `fb[h][8n+j]` (30_encoding.md R83, R94). -/
def Obligations.BankFrameLayout : Prop :=
  ∀ (h : Hand) (n : BitVec 2) (s : State),
    (bankFrameNow h n s).length = 25 ∧
    (bankFrameNow h n s)[0]? = some (s.cfg.cmdLedBankBase + n.setWidth 8) ∧
    ∀ j : BitVec 3, ∀ i : BitVec 5, i.toNat = 8 * n.toNat + j.toNat →
      (bankFrameNow h n s)[1 + 3 * j.toNat]? = some (gammaOf s.cfg (ledAt (s.fb.get h) i).b) ∧
      (bankFrameNow h n s)[2 + 3 * j.toNat]? = some (gammaOf s.cfg (ledAt (s.fb.get h) i).g) ∧
      (bankFrameNow h n s)[3 + 3 * j.toNat]? = some (gammaOf s.cfg (ledAt (s.fb.get h) i).r)

/-! ## Admission, stuck and halted -/

/-- 43_system_ops.md R194, for a well-formed configuration and a block that is not stuck: an operation is refused exactly
when it is not admitted, SETUP being admitted when `halted = 0`, every other operation when `initialized = 1` too. -/
def Obligations.OperationsAreRefusedExactlyWhenNotAdmitted : Prop :=
  ∀ (i : Instr) (s : State), isOperation i → configOk s.cfg = true → s.hung = false →
    ((∃ r, exec i s = .refused r) ↔ ¬ (s.halted = false ∧ (i = .setup ∨ s.initialized = true)))

/-- A stuck block admits nothing (60_exceptions.md R215), and a halted one nothing either (43_system_ops.md R199); that
the bare frames and replies are refused too is the model's choice (assumption log 9), and so is which reason is named where
several hold (log 25). -/
def Obligations.StuckOrHaltedBlockAdmitsNothing : Prop :=
  ∀ (i : Instr) (s : State), configOk s.cfg = true →
    (s.hung = true → exec i s = .refused .blockStuck) ∧
    (s.hung = false → s.halted = true → exec i s = .refused .blockHalted)

/-- With no input left a stuck block and a halted one make no further step (93_implementation_defined.md U9, U10); that
the missing step is a fault is the model's choice (assumption log 8). Any other block steps to itself: that is the
model's reading (assumption log 15), since 70_reset_and_hazards.md R240 says it of the time before `setup` only. The
configuration is well formed, for under any other each step is refused (00_scope.md R4). -/
def Obligations.StuckOrHaltedBlockMakesNoStep : Prop :=
  ∀ s : State, configOk s.cfg = true → s.inbox = [] →
    (s.hung = true → step s = .fault .stuckInTransaction) ∧
    (s.hung = false → s.halted = true → step s = .fault .spinningForReboot) ∧
    (s.hung = false → s.halted = false → step s = .next s)

/-- Under a well-formed configuration the watchdog restarts the block from any state, stuck or halted ones too: the mode
bits are cleared, the history is kept, and every instruction but SETUP is refused afterwards (70_reset_and_hazards.md
R240, R241, 60_exceptions.md R226). What the other registers hold is free (assumption log 4). That the peripherals and
the pending inputs stay as they are is the model's choice (assumption log 20): R241 says that the peripherals' state may
persist, and nothing of the inputs. That a bare frame or reply is an instruction and is refused too is the model's
choice (log 9), and so is that the missing `setup` is named before an ill-formed transaction (log 25). -/
def Obligations.WatchdogRestartsTheBlock : Prop :=
  ∀ (s : State) (rest : List Input), configOk s.cfg = true → s.inbox = .watchdog :: rest →
    ∃ t, step s = .next t ∧ t.initialized = false ∧ t.halted = false ∧ t.powerEn = false ∧ t.hung = false ∧
      t.busLog = s.busLog ∧ t.periph = s.periph ∧ t.cfg = s.cfg ∧ t.inbox = rest ∧
      ∀ i, i ≠ .setup → exec i t = .refused .beforeSetup

/-- After power-on the mode bits and `power_en` are 0 and the history is empty (10_state.md R31, 70_reset_and_hazards.md
R240). -/
def Obligations.ResetLeavesTheBlockUninitialised : Prop :=
  State.reset.initialized = false ∧ State.reset.halted = false ∧ State.reset.powerEn = false ∧
    State.reset.busLog = [] ∧ State.reset.hung = false

/-! ## Invariants and whole-machine rules -/

/-- 10_state.md R33, as an invariant that every step keeps: while `setup` has completed and the block is not stuck,
`ev_pos <= 64`, `last_flush` is within its width, and every stored colour is a fixed point of the quantisation. -/
def Obligations.StepKeepsTheStateInvariant : Prop :=
  ∀ s t : State, s.Inv → step s = .next t → t.Inv

/-- The state after reset meets the invariant (10_state.md R31, R33). -/
def Obligations.ResetMeetsTheStateInvariant : Prop := State.reset.Inv

/-- No step and no instruction, well formed or not, issues anything but whole frames of the command map, and reads of 5
bytes or 1, to the two devices (30_encoding.md R96, 20_memory.md R43, 40_bus_transceiver.md R128). -/
def Obligations.OnlyFramesOfTheCommandMapAreIssued : Prop :=
  ∀ s t : State, s.LogFramed →
    (∀ i : Instr, exec i s = .next t → t.LogFramed) ∧ (step s = .next t → t.LogFramed)

/-- The history only grows, at its end: no step removes or reorders a transaction (10_state.md R27, 20_memory.md R54). -/
def Obligations.HistoryOnlyGrows : Prop :=
  ∀ s t : State, step s = .next t → ∃ l, t.busLog = s.busLog ++ l

/-- Each register of the block is written only by the operations 10_state.md R10 lists for it; the inputs and the
configuration by none. SETUP sets `initialized` and `power_en`, and no instruction clears them (R21, R26); that the bits
are set after a SETUP that hangs too is the model's choice (assumption log 7, by the order of 43_system_ops.md R190). A
step that takes an input writes only the pin, the peripheral or the list that the input names (30_encoding.md R102; that
inputs land between operations is the model's choice, logs 5, 18; the configuration is well formed, for under any other each
step is refused, 00_scope.md R4). -/
def Obligations.RegistersAreWrittenOnlyByTheirWriters : Prop :=
  (∀ (i : Instr) (s t : State), exec i s = .next t →
    (i ≠ .scanm → i ≠ .setup → t.currScan = s.currScan ∧ t.prevScan = s.prevScan) ∧
    (i ≠ .scanm → i ≠ .nextev → i ≠ .setup → t.evPos = s.evPos) ∧
    (i ≠ .updleds → i ≠ .setup → t.lastFlush = s.lastFlush) ∧
    (i ≠ .setup → t.initialized = s.initialized ∧ t.powerEn = s.powerEn) ∧
    (i = .setup → t.initialized = true ∧ t.powerEn = true) ∧
    (i ≠ .reboot → t.halted = s.halted) ∧
    ((∀ h j c, i ≠ .sSetlc h j c) → (∀ h j c, i ≠ .sUpdled h j c) → (∀ h c, i ≠ .sUpdall h c) →
      (∀ k c, i ≠ .setkc k c) → i ≠ .setup → t.fb = s.fb) ∧
    ((∀ h j c, i ≠ .sSetlc h j c) → (∀ k c, i ≠ .setkc k c) → (∀ h, i ≠ .sUpdbank h) → (∀ h c, i ≠ .sUpdall h c) →
      i ≠ .updleds → i ≠ .setup → t.dirty = s.dirty) ∧
    ((∀ h, i ≠ .sUpdbank h) → i ≠ .updleds → i ≠ .setup → t.cursor = s.cursor) ∧
    t.cfg = s.cfg ∧ t.msNow = s.msNow ∧ t.overcurrent = s.overcurrent ∧ t.inbox = s.inbox) ∧
  ∀ (s : State) (rest : List Input), configOk s.cfg = true →
    (∀ ms, s.inbox = .time ms :: rest → step s = .next ((s.withInbox rest).withMsNow ms)) ∧
    (∀ b, s.inbox = .overcurrent b :: rest → step s = .next ((s.withInbox rest).withOvercurrent b)) ∧
    (∀ h w, s.inbox = .keys h w :: rest →
      step s = .next ((s.withInbox rest).withPeriph (s.periph.set h { s.periph.get h with keys := w }))) ∧
    (∀ h b, s.inbox = .fail h b :: rest →
      step s = .next ((s.withInbox rest).withPeriph (s.periph.set h { s.periph.get h with fail := b }))) ∧
    (∀ turn, s.inbox = .turn turn :: rest → step s = .next ((s.withInbox rest).withTurns (s.turns ++ [turn])))

/-- The time input is read by SETUP and UPDLEDS only (10_state.md R24), and the overcurrent input by LEDPF only (R25,
60_exceptions.md R214): any other instruction does the same whatever the input shows. -/
def Obligations.InputsAreReadOnlyByTheirReaders : Prop :=
  ∀ (i : Instr) (s : State) (m : Nat) (b : Bool),
    (i ≠ .setup → i ≠ .updleds → exec i (s.withMsNow m) = mapNext (fun t => t.withMsNow m) (exec i s)) ∧
    (i ≠ .ledpf → exec i (s.withOvercurrent b) = mapNext (fun t => t.withOvercurrent b) (exec i s))

/-- No operation reads the history (10_state.md R27): with a longer past, every instruction does the same and appends the
same. -/
def Obligations.NoOperationReadsTheHistory : Prop :=
  ∀ (i : Instr) (s : State) (past : List Transaction),
    exec i (s.withBusLog (past ++ s.busLog)) = mapNext (fun t => t.withBusLog (past ++ t.busLog)) (exec i s)

/-! ## System operations -/

/-- SETUP: whatever the bus answered, the block's state is that of 10_state.md R32, with one broadcast of black to each
hand, left first (43_system_ops.md R190); a status the environment gives is the one that enters the history. A healthy
reference responder shows black afterwards, as it goes over the wire, and a failing one is as before (10_state.md R32,
R30 a). It is admitted initialised or not. -/
def Obligations.SetupEstablishesTheResetTable : Prop :=
  ∀ s : State, s.Live → s.Answered 2 → ∃ t st0 st1, exec .setup s = .next t ∧
    t.currScan = ⟨0, 0⟩ ∧ t.prevScan = ⟨0, 0⟩ ∧ t.evPos = 64 ∧ (∀ h i, ledAt (t.fb.get h) i = ⟨0, 0, 0⟩) ∧
    t.dirty = ⟨0, 0⟩ ∧ t.cursor = ⟨0, 0⟩ ∧ t.lastFlush = s.msNow % 2 ^ s.cfg.timerBits ∧
    t.initialized = true ∧ t.halted = false ∧ t.powerEn = true ∧ t.hung = false ∧ t.result = .none ∧
    t.cfg = s.cfg ∧ t.msNow = s.msNow ∧ t.overcurrent = s.overcurrent ∧ t.inbox = s.inbox ∧
    (∀ f, s.forcedStatus 0 = some f → st0 = f) ∧ (∀ f, s.forcedStatus 1 = some f → st1 = f) ∧
    (s.Unscripted → ∀ h, ((s.periph.get h).fail = true → t.periph.get h = s.periph.get h) ∧
      ((s.periph.get h).fail = false → ∀ i, ledAt (t.periph.get h).leds i = wire s.cfg ⟨0, 0, 0⟩)) ∧
    t.busLog = s.busLog ++
      [.write (devAddr s.cfg .left)
          [s.cfg.cmdLedSetAll, gammaOf s.cfg 0, gammaOf s.cfg 0, gammaOf s.cfg 0] st0,
        .write (devAddr s.cfg .right)
          [s.cfg.cmdLedSetAll, gammaOf s.cfg 0, gammaOf s.cfg 0, gammaOf s.cfg 0] st1]

/-- SETKSI: the interval byte to both hands, left first, the right one whatever the left's status; the result is the pair
of raw statuses, those the environment gives where it gives them, and no register of the block changes
(43_system_ops.md R191). -/
def Obligations.KeyboardIntervalIsForwardedToBothHands : Prop :=
  ∀ (s : State) (v : Byte), s.Ready → s.Answered 2 → ∃ t st0 st1, exec (.setksi v) s = .next t ∧
    t.result = .statusPair st0 st1 ∧ SameBlock s t ∧
    (∀ f, s.forcedStatus 0 = some f → st0 = f) ∧ (∀ f, s.forcedStatus 1 = some f → st1 = f) ∧
    t.busLog = s.busLog ++ [.write (devAddr s.cfg .left) [s.cfg.cmdKeyscanInterval, v] st0,
      .write (devAddr s.cfg .right) [s.cfg.cmdKeyscanInterval, v] st1]

/-- LEDPF returns the overcurrent input and does nothing else (43_system_ops.md R192, 10_state.md R25). -/
def Obligations.PowerFaultQueryReturnsTheInput : Prop :=
  ∀ s : State, s.Ready → exec .ledpf s = .next (s.withResult (.bool s.overcurrent))

/-- REBOOT halts the block and changes no other state; no bus traffic; every later operation is refused (43_system_ops.md
R199, R194). That it answers a next state without a result, where R199 says it never returns, is the model's choice
(assumption log 21), and so are that bare frames and replies are refused afterwards too (log 9), and that an
ill-formed one is refused as blockHalted (log 25). -/
def Obligations.RebootHaltsTheBlock : Prop :=
  ∀ s : State, s.Ready → ∃ t, exec .reboot s = .next t ∧ t = (s.withHalted true).withResult .none ∧
    ∀ i, exec i t = .refused .blockHalted

/-! ## Key scan -/

/-- SCANM: the snapshots are saved, then the left and the right hand are read, each stored only on success, and the
iterator restarts; nothing else of the block changes (41_key_scan_edge.md R140). -/
def Obligations.ScanMatrixTakesBothSnapshots : Prop :=
  ∀ s : State, s.Ready → s.Answered 2 → ∃ t r0 r1, exec .scanm s = .next t ∧
    t.prevScan = s.currScan ∧
    t.currScan.left = (keyDataOf s.cfg r0).getD s.currScan.left ∧
    t.currScan.right = (keyDataOf s.cfg r1).getD s.currScan.right ∧
    t.evPos = 0 ∧ t.result = .none ∧
    t.busLog = s.busLog ++ [.read (devAddr s.cfg .left) 5 r0, .read (devAddr s.cfg .right) 5 r1] ∧
    SameBlock (((s.withPrevScan t.prevScan).withCurrScan t.currScan).withEvPos t.evPos) t

/-- A hand whose peripheral fails keeps its snapshot and has no event in the cycle, whatever the other hand does: the
stability policy (41_key_scan_edge.md R145, 60_exceptions.md R218; vector V-EXC-8). If both fail, the first NEXTEV returns
none (property S7). The failing peripheral is the reference responder's. -/
def Obligations.FailedReadsYieldNoEvents : Prop :=
  ∀ (s : State) (h : Hand), s.Ready → s.Unscripted → (s.periph.get h).fail = true →
    ∃ t, exec .scanm s = .next t ∧ t.currScan.get h = s.currScan.get h ∧ t.prevScan = s.currScan ∧
      t.periph.get h = s.periph.get h ∧
      (∀ k, keyHand k = h → keybit t.currScan k = keybit t.prevScan k) ∧
      (∀ e ∈ scanEvents t.currScan t.prevScan, keyHand e.address ≠ h) ∧
      ((∀ h', (s.periph.get h').fail = true) → t.currScan = s.currScan ∧ t.periph = s.periph ∧
        ∃ u, exec .nextev t = .next u ∧ u.result = .optEvent none ∧ u.evPos = 64)

/-- A scan cycle on healthy reference responders with no register selected delivers exactly their debounced key states
(20_memory.md R66, 41_key_scan_edge.md R140). -/
def Obligations.HealthyScanDeliversTheKeys : Prop :=
  ∀ s : State, s.Ready → s.Unscripted →
    (∀ h, (s.periph.get h).fail = false ∧ (s.periph.get h).sel = .none) →
    ∃ t, exec .scanm s = .next t ∧ t.currScan = ⟨s.periph.left.keys, s.periph.right.keys⟩ ∧
      t.prevScan = s.currScan ∧ t.evPos = 0 ∧ t.periph = s.periph

/-- A transaction that hangs leaves the block stuck inside its operation: what the operation wrote before it is written,
nothing later happens, there is no result (60_exceptions.md R215; vector V-EXC-7). First transactions: of SETUP,
initialised or not, after its registers and before the frame buffer; of SCANM after the snapshots are saved; of a flush step
after the cursor, with the dirty bit still set; of UPDLEDS after the time stamp and the cursors of the hands it has come
to; of the operations that write nothing before it, with nothing written. Second transactions: of SETUP with the left
hand's frame buffer black and its dirty bits clear; of SCANM with the left hand's snapshot stored; of SETKSI; of the three
register reads whose select succeeded; of UPDLEDS with the left hand's bank sent and clean. That a hung transaction is not
logged is the model's choice (assumption log 7), and so are that a bare frame is an instruction (log 9), the last eight of
the list, and that a first write which the environment answers with a status of its own, 0 too, leaves the peripherals as
they were, so that no broadcast, select or bank frame has reached them in the second clauses (log 31). -/
def Obligations.HungTransactionsLeaveOperationsUnfinished : Prop :=
  ∀ (s u : State) (h : Hand) (v : Byte) (c : Color) (i : BitVec 5) (w : Bgr) (n : BitVec 2)
    (ws : Vector Bgr 8) (ts : List Turn), s.Live →
    u = ((((s.withPowerEn true).withCurrScan ⟨0, 0⟩).withPrevScan ⟨0, 0⟩).withEvPos 64).withInitialized true →
    (s.turns = ⟨none, none, .hang⟩ :: ts →
      exec .setup s = .next (u.stuckBefore ts) ∧
      (s.initialized = true →
        exec .scanm s = .next ((s.withPrevScan s.currScan).stuckBefore ts) ∧
        (isDirty (s.dirty.get h) (s.cursor.get h + 1) = true →
          exec (.sUpdbank h) s = .next ((s.withCursor (s.cursor.set h (s.cursor.get h + 1))).stuckBefore ts)) ∧
        (∀ now, now = s.msNow % 2 ^ s.cfg.timerBits → s.lastFlush < 2 ^ s.cfg.timerBits →
          s.cfg.ledFlushIntervalMs ≤ (now + 2 ^ s.cfg.timerBits - s.lastFlush) % 2 ^ s.cfg.timerBits →
          (isDirty s.dirty.left (s.cursor.left + 1) = true →
            exec .updleds s = .next
              (((s.withLastFlush now).withCursor ⟨s.cursor.left + 1, s.cursor.right⟩).stuckBefore ts)) ∧
          (isDirty s.dirty.left (s.cursor.left + 1) = false → isDirty s.dirty.right (s.cursor.right + 1) = true →
            exec .updleds s = .next
              (((s.withLastFlush now).withCursor ⟨s.cursor.left + 1, s.cursor.right + 1⟩).stuckBefore ts))) ∧
        (∀ op ∈ [Instr.setksi v, .sRdkeys h, .sUpdled h (i.setWidth 8) c, .sUpdall h c, .sSetksi h v, .sSetspi h v,
            .sRdver h, .sRdksi h, .sRdspi h, .ledSetOne (devAddr s.cfg h) (i.setWidth 8) w,
            .ledSetAll (devAddr s.cfg h) w, .ledBank (devAddr s.cfg h) n ws, .keyscanInterval (devAddr s.cfg h) v,
            .ledSpiFrequency (devAddr s.cfg h) v, .regselVersion (devAddr s.cfg h), .regselKsi (devAddr s.cfg h),
            .regselSpi (devAddr s.cfg h)],
          exec op s = .next (s.stuckBefore ts)))) ∧
    (∀ f bytes, s.turns = ⟨none, none, .forced f bytes⟩ :: ⟨none, none, .hang⟩ :: ts →
      (∃ leds, (∀ j, ledAt leds j = ⟨0, 0, 0⟩) ∧
        exec .setup s = .next ((((u.withFb ⟨leds, s.fb.right⟩).withDirty ⟨0, s.dirty.right⟩).logged
          (.write (devAddr s.cfg .left)
            [s.cfg.cmdLedSetAll, gammaOf s.cfg 0, gammaOf s.cfg 0, gammaOf s.cfg 0] f)).stuckBefore ts)) ∧
      (s.initialized = true →
        (∃ t r, exec .scanm s = .next t ∧ t.hung = true ∧ t.result = .none ∧ t.prevScan = s.currScan ∧
          t.currScan = ⟨(keyDataOf s.cfg r).getD s.currScan.left, s.currScan.right⟩ ∧ t.evPos = s.evPos ∧
          t.busLog = s.busLog ++ [.read (devAddr s.cfg .left) 5 r]) ∧
        exec (.setksi v) s = .next
          ((s.logged (.write (devAddr s.cfg .left) [s.cfg.cmdKeyscanInterval, v] f)).stuckBefore ts) ∧
        (f = 0 → ∀ x ∈ [(Instr.sRdver h, s.cfg.cmdVersion), (.sRdksi h, s.cfg.cmdKeyscanInterval),
            (.sRdspi h, s.cfg.cmdLedSpiFrequency)],
          exec x.1 s = .next ((s.logged (.write (devAddr s.cfg h) [x.2] f)).stuckBefore ts)) ∧
        (∀ now, now = s.msNow % 2 ^ s.cfg.timerBits → s.lastFlush < 2 ^ s.cfg.timerBits →
          s.cfg.ledFlushIntervalMs ≤ (now + 2 ^ s.cfg.timerBits - s.lastFlush) % 2 ^ s.cfg.timerBits →
          isDirty s.dirty.left (s.cursor.left + 1) = true → isDirty s.dirty.right (s.cursor.right + 1) = true →
          ∃ mask, (∀ m, isDirty mask m = (isDirty s.dirty.left m && !decide (m = s.cursor.left + 1))) ∧
            exec .updleds s = .next (((((s.withLastFlush now).withCursor
              ⟨s.cursor.left + 1, s.cursor.right + 1⟩).withDirty ⟨mask, s.dirty.right⟩).logged
                (.write (devAddr s.cfg .left) (bankFrameNow .left (s.cursor.left + 1) s) f)).stuckBefore ts))))

/-- NEXTEV from a position up to 64: the first changed key at or after it is returned with both its states and the
iterator stands behind it; where there is none, the result is none and the iterator stands at 64. Only the iterator and
the result change (41_key_scan_edge.md R142). -/
def Obligations.NextEventFindsTheFirstChangedKey : Prop :=
  ∀ s : State, s.Ready → s.evPos.toNat ≤ 64 →
    (∃ k : BitVec 6, s.evPos.toNat ≤ k.toNat ∧ keybit s.currScan k ≠ keybit s.prevScan k ∧
      (∀ j : BitVec 6, s.evPos.toNat ≤ j.toNat → j.toNat < k.toNat → keybit s.currScan j = keybit s.prevScan j) ∧
      exec .nextev s = .next ((s.withEvPos (k.setWidth 7 + 1)).withResult
        (.optEvent (some ⟨k, keybit s.prevScan k, keybit s.currScan k⟩)))) ∨
    ((∀ k : BitVec 6, s.evPos.toNat ≤ k.toNat → keybit s.currScan k = keybit s.prevScan k) ∧
      exec .nextev s = .next ((s.withEvPos 64).withResult (.optEvent none)))

/-- The events of a cycle are those of the changed keys, each with both states read from the snapshots, in strictly
ascending KeyAddr order (41_key_scan_edge.md R141, R144). -/
def Obligations.EventsAreTheChangedKeysInOrder : Prop :=
  ∀ curr prev : Pair Scan,
    (∀ e, e ∈ scanEvents curr prev ↔
      keybit curr e.address ≠ keybit prev e.address ∧ e.previousState = keybit prev e.address ∧
        e.currentState = keybit curr e.address) ∧
    (scanEvents curr prev).Pairwise fun a b => a.address.toNat < b.address.toNat

/-- Calling NEXTEV again and again from `ev_pos = 0` returns exactly the events of the cycle in order, then none, with
`ev_pos = 64` (41_key_scan_edge.md R143). -/
def Obligations.DrainReturnsTheEventsOfTheCycle : Prop :=
  ∀ s : State, s.Ready → s.evPos = 0 → ∀ n, n ≤ (scanEvents s.currScan s.prevScan).length →
    ∃ t, execAll (List.replicate (n + 1) .nextev) s = .next t ∧
      t.result = .optEvent ((scanEvents s.currScan s.prevScan)[n]?) ∧
      t.currScan = s.currScan ∧ t.prevScan = s.prevScan ∧
      (n = (scanEvents s.currScan s.prevScan).length → t.evPos = 64)

/-! ## Transceiver -/

/-- S.RDKEYS: one 5-byte read of the hand's device; the result is the scan word if the reply is key data, else none; no
register of the block changes (40_bus_transceiver.md R120). -/
def Obligations.ReadKeysReturnsTheReply : Prop :=
  ∀ (s : State) (h : Hand), s.Ready → s.Answered 1 → ∃ t r, exec (.sRdkeys h) s = .next t ∧
    t.result = .optScan (keyDataOf s.cfg r) ∧ SameBlock s t ∧
    t.busLog = s.busLog ++ [.read (devAddr s.cfg h) 5 r]

/-- S.RDKEYS under an answer the environment forces: a non-zero status gives none; fewer than 5 bytes give none and a
non-zero status in the history; 5 bytes with another tag give none; 5 bytes with the key-data tag give their banks
(20_memory.md R52, 60_exceptions.md R211, R212, R218). -/
def Obligations.ReadKeysUnderEveryAnswer : Prop :=
  ∀ (s : State) (h : Hand) (st : Byte) (bytes : List Byte) (ts : List Turn), s.Ready →
    s.turns = ⟨none, none, .forced st bytes⟩ :: ts →
    ∃ t, exec (.sRdkeys h) s = .next t ∧ SameBlock s t ∧ t.turns = ts ∧
      (st ≠ 0 → t.result = .optScan none ∧ t.busLog = s.busLog ++ [.read (devAddr s.cfg h) 5 (.err st)]) ∧
      (st = 0 → bytes.length < 5 → t.result = .optScan none ∧
        ∃ e, e ≠ 0 ∧ t.busLog = s.busLog ++ [.read (devAddr s.cfg h) 5 (.err e)]) ∧
      (∀ tag b0 b1 b2 b3, st = 0 → bytes = [tag, b0, b1, b2, b3] →
        t.busLog = s.busLog ++ [.read (devAddr s.cfg h) 5 (.ok bytes)] ∧
        (tag ≠ s.cfg.replyKeydata → t.result = .optScan none) ∧
        (tag = s.cfg.replyKeydata → t.result = .optScan (some (b3 ++ b2 ++ b1 ++ b0))))

/-- S.SETKSI and S.SETSPI: one 2-byte frame with the value unchanged, the raw status as result, which is the one the
environment gives where it gives one; no register of the block is written (40_bus_transceiver.md R121, R122;
30_encoding.md R84, R85; 20_memory.md R51, R58). -/
def Obligations.ConfigurationWritesReturnTheRawStatus : Prop :=
  ∀ (s : State) (h : Hand) (v : Byte), s.Ready → s.Answered 1 →
    (∃ t st, exec (.sSetksi h v) s = .next t ∧ t.result = .status st ∧ SameBlock s t ∧
      (∀ f, s.forcedStatus 0 = some f → st = f) ∧
      t.busLog = s.busLog ++ [.write (devAddr s.cfg h) [s.cfg.cmdKeyscanInterval, v] st]) ∧
    (∃ t st, exec (.sSetspi h v) s = .next t ∧ t.result = .status st ∧ SameBlock s t ∧
      (∀ f, s.forcedStatus 0 = some f → st = f) ∧
      t.busLog = s.busLog ++ [.write (devAddr s.cfg h) [s.cfg.cmdLedSpiFrequency, v] st])

/-- S.RDVER, S.RDKSI, S.RDSPI: a 1-byte select write; if its status is not 0 the read is not attempted and the result is
none; else a 1-byte read: the one byte it returned is the result, or none if it returned an error, whose status is not 0.
No register of the block changes (40_bus_transceiver.md R123 to R126, 60_exceptions.md R211). -/
def Obligations.RegisterReadsSelectThenRead : Prop :=
  ∀ (s : State) (h : Hand) (i : Instr) (sel : Byte), s.Ready → s.Answered 2 →
    (i = .sRdver h ∧ sel = s.cfg.cmdVersion ∨ i = .sRdksi h ∧ sel = s.cfg.cmdKeyscanInterval ∨
      i = .sRdspi h ∧ sel = s.cfg.cmdLedSpiFrequency) →
    ∃ t st, exec i s = .next t ∧ SameBlock s t ∧ (∀ f, s.forcedStatus 0 = some f → st = f) ∧
      (st ≠ 0 → t.result = .optByte none ∧ t.busLog = s.busLog ++ [.write (devAddr s.cfg h) [sel] st]) ∧
      (st = 0 →
        (∃ b, t.result = .optByte (some b) ∧
          t.busLog = s.busLog ++ [.write (devAddr s.cfg h) [sel] st, .read (devAddr s.cfg h) 1 (.ok [b])]) ∨
        ∃ e, e ≠ 0 ∧ t.result = .optByte none ∧
          t.busLog = s.busLog ++ [.write (devAddr s.cfg h) [sel] st, .read (devAddr s.cfg h) 1 (.err e)])

/-- On a healthy reference responder a written interval and a written SPI frequency are read back, the version register
reads as the peripheral's version, and no selection is left behind (20_memory.md R64 to R66). -/
def Obligations.WrittenRegistersAreReadBack : Prop :=
  ∀ (s : State) (h : Hand) (v : Byte), s.Ready → s.Unscripted → (s.periph.get h).fail = false →
    (∃ t, execAll [.sSetksi h v, .sRdksi h] s = .next t ∧ t.result = .optByte (some v) ∧
      (t.periph.get h).sel = .none) ∧
    (∃ t, execAll [.sSetspi h v, .sRdspi h] s = .next t ∧ t.result = .optByte (some v) ∧
      (t.periph.get h).sel = .none) ∧
    (∃ t, exec (.sRdver h) s = .next t ∧ t.result = .optByte (some (s.periph.get h).version) ∧
      (t.periph.get h).sel = .none)

/-- The hazard of 70_reset_and_hazards.md R252, on the reference responder: a key read that meets a selected register, any
of the three, takes the register's byte for the tag; it is rejected unless the byte equals the key-data tag, when all 32
keys read as pressed. The selection is spent either way. -/
def Obligations.SelectedRegisterSpoilsTheNextKeyRead : Prop :=
  ∀ (s : State) (h : Hand) (v : Byte) (p : Periph), s.Ready → s.Unscripted → p = s.periph.get h → p.fail = false →
    (p.sel = .version ∧ v = p.version ∨ p.sel = .keyscanInterval ∧ v = p.keyscanInterval ∨
      p.sel = .spiFreq ∧ v = p.spiFreq) →
    ∃ t, exec (.sRdkeys h) s = .next t ∧ t.periph = s.periph.set h { p with sel := .none } ∧ SameBlock s t ∧
      t.result = .optScan (if v = s.cfg.replyKeydata then some 0xFFFFFFFF else none)

/-! ## LED synchroniser -/

/-- S.SETLC with a valid index: that entry holds the stored form of the colour, every other entry of both hands is
unchanged; its bank is dirty if the colour differs from what was stored, and every other dirty bit is unchanged; nothing
else changes and nothing is sent (42_led_sync.md R160). -/
def Obligations.SetLedColorStoresAndMarks : Prop :=
  ∀ (s : State) (h : Hand) (i : BitVec 5) (c : Color), s.Ready →
    ∃ t, exec (.sSetlc h (i.setWidth 8) c) s = .next t ∧ t.result = .none ∧ NoBusTraffic s t ∧
      (∀ k j, ledAt (t.fb.get k) j = if k = h ∧ j = i then quantise s.cfg c else ledAt (s.fb.get k) j) ∧
      (∀ k n, isDirty (t.dirty.get k) n =
        (isDirty (s.dirty.get k) n ||
          decide (k = h ∧ n = ledBankOf i ∧ ledAt (s.fb.get h) i ≠ quantise s.cfg c))) ∧
      SameBlock ((s.withFb t.fb).withDirty t.dirty) t

/-- S.GETLC with a valid index returns the frame buffer's entry and changes nothing (42_led_sync.md R161). -/
def Obligations.GetLedColorReturnsTheEntry : Prop :=
  ∀ (s : State) (h : Hand) (i : BitVec 5), s.Ready →
    exec (.sGetlc h (i.setWidth 8)) s = .next (s.withResult (.optColor (some (ledAt (s.fb.get h) i))))

/-- SETKC and GETKC with a valid KeyAddr do what S.SETLC and S.GETLC do on the hand and index of the key's LED
(42_led_sync.md R165, R166, R170; 30_encoding.md R103). -/
def Obligations.KeyColoursDelegateToTheLed : Prop :=
  ∀ (s : State) (k l : BitVec 6) (c : Color), s.Ready → l = ledOfKey s.cfg k →
    (∃ t, exec (.setkc (k.setWidth 8) c) s = .next t ∧
      exec (.sSetlc (ledHand l) ((ledIndex l).setWidth 8) c) s = .next t) ∧
    exec (.getkc (k.setWidth 8)) s = .next (s.withResult
      (.optColor (some (ledAt (s.fb.get (ledHand l)) (ledIndex l)))))

/-- An address out of range is rejected: nothing of the block or of the environment changes, nothing is sent, and a
getter and S.UPDLED return none (60_exceptions.md R213). -/
def Obligations.InvalidAddressesAreRejected : Prop :=
  ∀ (s : State) (h : Hand) (a : Byte) (c : Color), s.Ready →
    (32 ≤ a.toNat →
      exec (.sSetlc h a c) s = .next (s.withResult .none) ∧
      exec (.sGetlc h a) s = .next (s.withResult (.optColor none)) ∧
      exec (.sUpdled h a c) s = .next (s.withResult (.optByte none))) ∧
    (64 ≤ a.toNat →
      exec (.setkc a c) s = .next (s.withResult .none) ∧
      exec (.getkc a) s = .next (s.withResult (.optColor none)))

/-- A colour set is the colour got, in its stored form, whatever flush steps lie between (20_memory.md R55; property S5;
exact in rgb888 mode, 90_conflicts.md C14). The environment is the reference responder, so that no flush hangs. -/
def Obligations.FrameBufferIsReadYourWrites : Prop :=
  ∀ (s : State) (h : Hand) (i : BitVec 5) (c : Color) (flushes : List Instr), s.Ready → s.Unscripted →
    (∀ j ∈ flushes, isFlush j = true) →
    ∃ t, execAll (.sSetlc h (i.setWidth 8) c :: (flushes ++ [.sGetlc h (i.setWidth 8)])) s = .next t ∧
      t.result = .optColor (some (quantise s.cfg c)) ∧
      (s.cfg.colorMode = .rgb888 → t.result = .optColor (some c))

/-- S.UPDBANK: the cursor advances by one modulo 4; if the bank it then selects is dirty, one frame of that bank as the
frame buffer holds it is sent and its bit alone is cleared whatever the status; if not, nothing is sent and no bit
changes. Nothing else of the block changes (42_led_sync.md R162). A healthy reference responder then shows the frame
buffer, as it goes over the wire, on the eight LEDs of a bank that was sent, and its other LEDs as before (20_memory.md
R55, R63). -/
def Obligations.UpdateNextBankSendsTheSelectedDirtyBank : Prop :=
  ∀ (s : State) (h : Hand) (n : BitVec 2), s.Ready → s.Answered 1 → n = s.cursor.get h + 1 →
    ∃ t, exec (.sUpdbank h) s = .next t ∧ t.result = .none ∧ t.cursor = s.cursor.set h n ∧
      (isDirty (s.dirty.get h) n = true →
        ∃ st, t.busLog = s.busLog ++ [.write (devAddr s.cfg h) (bankFrameNow h n s) st]) ∧
      (isDirty (s.dirty.get h) n = false → NoBusTraffic s t) ∧
      (∀ k m, isDirty (t.dirty.get k) m = (isDirty (s.dirty.get k) m && !decide (k = h ∧ m = n))) ∧
      (s.Unscripted → (s.periph.get h).fail = false → isDirty (s.dirty.get h) n = true →
        ∀ i, ledAt (t.periph.get h).leds i =
          if ledBankOf i = n then wire s.cfg (ledAt (s.fb.get h) i) else ledAt (s.periph.get h).leds i) ∧
      SameBlock ((s.withCursor t.cursor).withDirty t.dirty) t

/-- Four flush steps of a hand: no bank of it is dirty, each bank that was dirty has had exactly one frame, no frame was
sent for a clean bank, and the cursor is back where it was (42_led_sync.md R172; property S4). A healthy reference
responder then shows the frame buffer, as it goes over the wire, on every LED whose bank was dirty, and its other LEDs as
before (R172's last sentence, 20_memory.md R55). -/
def Obligations.FourFlushStepsFlushTheHand : Prop :=
  ∀ (s : State) (h : Hand), s.Ready → s.Answered 4 →
    ∃ t l, execAll (List.replicate 4 (.sUpdbank h)) s = .next t ∧ t.busLog = s.busLog ++ l ∧
      l.length = dirtyCount (s.dirty.get h) ∧
      (∀ n, isDirty (s.dirty.get h) n = true →
        ∃ st, Transaction.write (devAddr s.cfg h) (bankFrameNow h n s) st ∈ l) ∧
      t.dirty = s.dirty.set h 0 ∧ SameBlock (s.withDirty t.dirty) t ∧
      (s.Unscripted → (s.periph.get h).fail = false → ∀ i, ledAt (t.periph.get h).leds i =
        if isDirty (s.dirty.get h) (ledBankOf i) = true then wire s.cfg (ledAt (s.fb.get h) i)
        else ledAt (s.periph.get h).leds i)

/-- UPDLEDS before the interval has passed is gated: nothing happens (42_led_sync.md R167, R171). -/
def Obligations.UpdateLedsIsGatedBeforeTheInterval : Prop :=
  ∀ s : State, s.Ready →
    (s.msNow % 2 ^ s.cfg.timerBits + 2 ^ s.cfg.timerBits - s.lastFlush) % 2 ^ s.cfg.timerBits <
      s.cfg.ledFlushIntervalMs → s.lastFlush < 2 ^ s.cfg.timerBits →
    exec .updleds s = .next (s.withResult .none)

/-- UPDLEDS when the interval has passed, across a wrap of the counter too, stamps the time and takes one flush step of
the left hand and then one of the right (42_led_sync.md R167, 30_encoding.md R103). -/
def Obligations.UpdateLedsFiresAfterTheInterval : Prop :=
  ∀ s : State, s.Ready → s.Answered 2 → s.lastFlush < 2 ^ s.cfg.timerBits →
    s.cfg.ledFlushIntervalMs ≤
      (s.msNow % 2 ^ s.cfg.timerBits + 2 ^ s.cfg.timerBits - s.lastFlush) % 2 ^ s.cfg.timerBits →
    ∃ t, exec .updleds s = .next t ∧ t.lastFlush = s.msNow % 2 ^ s.cfg.timerBits ∧ t.result = .none ∧
      t.cursor = ⟨s.cursor.left + 1, s.cursor.right + 1⟩ ∧
      execAll [.sUpdbank .left, .sUpdbank .right] (s.withLastFlush (s.msNow % 2 ^ s.cfg.timerBits)) = .next t

/-- The rate limit: after a fired UPDLEDS, a second one at any time less than the interval later is gated
(42_led_sync.md R171). -/
def Obligations.FlushRateIsBounded : Prop :=
  ∀ (s t : State) (d : Nat), s.Ready → exec .updleds s = .next t → t.hung = false →
    t.lastFlush = s.msNow % 2 ^ s.cfg.timerBits → d < s.cfg.ledFlushIntervalMs →
    exec .updleds (t.withMsNow (s.msNow + d)) = .next ((t.withMsNow (s.msNow + d)).withResult .none)

/-- S.UPDLED with a valid index: one frame with the gamma-corrected stored form of the colour, then the frame buffer
entry whatever the status; no dirty bit, no other entry and no other register changes; the result is the status, the one
the environment gives where it gives one (42_led_sync.md R163, 30_encoding.md R81). A healthy reference responder then
shows the stored form, as it goes over the wire, on that LED alone (20_memory.md R61). -/
def Obligations.UpdateLedSendsAndStores : Prop :=
  ∀ (s : State) (h : Hand) (i : BitVec 5) (c q : Color), s.Ready → s.Answered 1 → q = quantise s.cfg c →
    ∃ t st, exec (.sUpdled h (i.setWidth 8) c) s = .next t ∧ t.result = .optByte (some st) ∧
      (∀ f, s.forcedStatus 0 = some f → st = f) ∧
      t.busLog = s.busLog ++ [.write (devAddr s.cfg h)
        [s.cfg.cmdLedSetOne, i.setWidth 8, gammaOf s.cfg q.b, gammaOf s.cfg q.g, gammaOf s.cfg q.r] st] ∧
      (∀ k j, ledAt (t.fb.get k) j = if k = h ∧ j = i then q else ledAt (s.fb.get k) j) ∧
      (s.Unscripted → (s.periph.get h).fail = false → ∀ j, ledAt (t.periph.get h).leds j =
        if j = i then wire s.cfg q else ledAt (s.periph.get h).leds j) ∧
      SameBlock (s.withFb t.fb) t

/-- S.UPDALL: one broadcast frame, then every entry of the hand is the colour's stored form and no bank of the hand is
dirty, whatever the status; the other hand, the cursors and the other registers do not change; the result is the status,
the one the environment gives where it gives one (42_led_sync.md R164, 30_encoding.md R82). A healthy reference responder
then shows the stored form, as it goes over the wire, on every LED (20_memory.md R62). -/
def Obligations.UpdateAllSendsAndResetsTheHand : Prop :=
  ∀ (s : State) (h : Hand) (c q : Color), s.Ready → s.Answered 1 → q = quantise s.cfg c →
    ∃ t st, exec (.sUpdall h c) s = .next t ∧ t.result = .status st ∧
      (∀ f, s.forcedStatus 0 = some f → st = f) ∧
      t.busLog = s.busLog ++ [.write (devAddr s.cfg h)
        [s.cfg.cmdLedSetAll, gammaOf s.cfg q.b, gammaOf s.cfg q.g, gammaOf s.cfg q.r] st] ∧
      (∀ k j, ledAt (t.fb.get k) j = if k = h then q else ledAt (s.fb.get k) j) ∧
      (s.Unscripted → (s.periph.get h).fail = false → ∀ j, ledAt (t.periph.get h).leds j = wire s.cfg q) ∧
      t.dirty = s.dirty.set h 0 ∧ SameBlock ((s.withFb t.fb).withDirty t.dirty) t

/-! ## Frames, replies and the peripherals -/

/-- Each of the eight write frames LED_SET_ONE, LED_SET_ALL, LED_BANK, KEYSCAN_INTERVAL, LED_SPI_FREQUENCY,
REGSEL.VERSION, REGSEL.KSI and REGSEL.SPI, taken as an instruction, is one write transaction of its bytes to its device;
the result is the raw status, the one the environment gives where it gives one, and no register of the block changes
(20_memory.md R51, R58; 30_encoding.md R81 to R86). To a device that is neither of the block's two, or with a LED index
byte of 32 or more, it is refused (20_memory.md R43, 30_encoding.md R81, 40_bus_transceiver.md R128; assumption log 30).
Before `setup` it is refused, for the block does nothing (70_reset_and_hazards.md R240). That a bare frame is an instruction
whose status is the result is the model's choice (assumption log 9), and so is that a missing `setup` is named before an
ill-formed transaction (log 25). -/
def Obligations.WriteFramesAreOneTransaction : Prop :=
  ∀ (s : State) (dev : BitVec 7) (index v : Byte) (w : Bgr) (n : BitVec 2) (ws : Vector Bgr 8), s.Live →
    (∀ frame ∈ [(Instr.ledSetOne dev index w, [s.cfg.cmdLedSetOne, index, w.b, w.g, w.r]),
        (.ledSetAll dev w, [s.cfg.cmdLedSetAll, w.b, w.g, w.r]),
        (.ledBank dev n ws, (s.cfg.cmdLedBankBase + n.setWidth 8) :: ws.toList.flatMap fun w => [w.b, w.g, w.r]),
        (.keyscanInterval dev v, [s.cfg.cmdKeyscanInterval, v]),
        (.ledSpiFrequency dev v, [s.cfg.cmdLedSpiFrequency, v]),
        (.regselVersion dev, [s.cfg.cmdVersion]), (.regselKsi dev, [s.cfg.cmdKeyscanInterval]),
        (.regselSpi dev, [s.cfg.cmdLedSpiFrequency])],
      (s.initialized = false → exec frame.1 s = .refused .beforeSetup) ∧
      (s.initialized = true → (dev = devAddr s.cfg .left ∨ dev = devAddr s.cfg .right) → index.toNat < 32 →
        s.Answered 1 →
        ∃ t st, exec frame.1 s = .next t ∧ t.result = .status st ∧ SameBlock s t ∧
          (∀ f, s.forcedStatus 0 = some f → st = f) ∧ t.busLog = s.busLog ++ [.write dev frame.2 st]) ∧
      (s.initialized = true → dev ≠ devAddr s.cfg .left → dev ≠ devAddr s.cfg .right →
        exec frame.1 s = .refused .illFormedTransaction)) ∧
    (s.initialized = true → 32 ≤ index.toNat → exec (.ledSetOne dev index w) s = .refused .illFormedTransaction)

/-- The replies KEYDATA and REG, taken as instructions to one of the block's two devices: a read of the reply's length,
which the environment answers with the reply, enters the history and the result is the scan word of the four banks, bank 0
lowest, and the register's byte; nothing else changes (30_encoding.md R87, R89; 20_memory.md R47). A read of any other
device is refused (20_memory.md R43; assumption log 30), and so is every read before `setup` (70_reset_and_hazards.md R240).
That a reply is an instruction is the model's choice (assumption log 9), and so is that a missing `setup` is named before an
ill-formed transaction (log 25). -/
def Obligations.RepliesDeliverTheirContents : Prop :=
  ∀ (s : State) (dev : BitVec 7) (b0 b1 b2 b3 v : Byte), s.Live →
    (s.initialized = false → exec (.keydata dev b0 b1 b2 b3) s = .refused .beforeSetup ∧
      exec (.reg dev v) s = .refused .beforeSetup) ∧
    (s.initialized = true → (dev = devAddr s.cfg .left ∨ dev = devAddr s.cfg .right) →
      exec (.keydata dev b0 b1 b2 b3) s = .next
        ((s.logged (.read dev 5 (.ok [s.cfg.replyKeydata, b0, b1, b2, b3]))).withResult
          (.optScan (some (b3 ++ b2 ++ b1 ++ b0)))) ∧
      exec (.reg dev v) s = .next ((s.logged (.read dev 1 (.ok [v]))).withResult (.optByte (some v)))) ∧
    (s.initialized = true → dev ≠ devAddr s.cfg .left → dev ≠ devAddr s.cfg .right →
      exec (.keydata dev b0 b1 b2 b3) s = .refused .illFormedTransaction ∧
      exec (.reg dev v) s = .refused .illFormedTransaction)

/-- The LED frames on a healthy reference responder: LED_SET_ONE sets the one LED its index names, LED_SET_ALL all 32,
LED_BANK the eight of its bank; no other LED and no other state of the peripheral changes, and the status is 0; a
LED_SET_ONE write with an index of 32 or more changes nothing and is answered 0 (20_memory.md R61, R62, R63). That a bare
frame is an instruction whose status is the result is the model's choice (assumption log 9), and so is that `power_en` is
not looked at (log 29). -/
def Obligations.LedFramesSetThePeripheralsLeds : Prop :=
  ∀ (s : State) (h : Hand) (index : BitVec 5) (w : Bgr) (n : BitVec 2) (ws : Vector Bgr 8) (p : Periph), s.Ready →
    s.Unscripted → p = s.periph.get h → p.fail = false →
    (∃ leds, exec (.ledSetOne (devAddr s.cfg h) (index.setWidth 8) w) s = .next
        (((s.withPeriph (s.periph.set h { p with leds := leds })).logged
          (.write (devAddr s.cfg h) [s.cfg.cmdLedSetOne, index.setWidth 8, w.b, w.g, w.r] 0)).withResult (.status 0)) ∧
      ∀ j : BitVec 5, ledAt leds j = if j = index then w else ledAt p.leds j) ∧
    (∃ leds, exec (.ledSetAll (devAddr s.cfg h) w) s = .next
        (((s.withPeriph (s.periph.set h { p with leds := leds })).logged
          (.write (devAddr s.cfg h) [s.cfg.cmdLedSetAll, w.b, w.g, w.r] 0)).withResult (.status 0)) ∧
      ∀ j : BitVec 5, ledAt leds j = w) ∧
    (∃ leds t, exec (.ledBank (devAddr s.cfg h) n ws) s = .next t ∧ t.result = .status 0 ∧ SameBlock s t ∧
      t.periph = s.periph.set h { p with leds := leds } ∧
      ∀ j : BitVec 5, ledAt leds j =
        if j.toNat / 8 = n.toNat then ws[j.toNat % 8]'(Nat.mod_lt _ (by decide)) else ledAt p.leds j) ∧
    ∀ big : Byte, 32 ≤ big.toNat →
      p.takeWrite s.cfg (devAddr s.cfg h) [s.cfg.cmdLedSetOne, big, w.b, w.g, w.r] = (0, p)

/-- The register frames on a healthy reference responder: the two configuration frames write their register, the three
select frames set the pending selection; nothing else of the peripheral changes, and the status is 0 (20_memory.md R64,
R65). That a bare frame is an instruction whose status is the result is the model's choice (assumption log 9), and so is
that `power_en` is not looked at (log 29). -/
def Obligations.RegisterFramesWriteThePeripheral : Prop :=
  ∀ (s : State) (h : Hand) (v : Byte) (p : Periph), s.Ready → s.Unscripted → p = s.periph.get h → p.fail = false →
    ∀ x ∈ [(Instr.keyscanInterval (devAddr s.cfg h) v, [s.cfg.cmdKeyscanInterval, v],
        { p with keyscanInterval := v }),
      (.ledSpiFrequency (devAddr s.cfg h) v, [s.cfg.cmdLedSpiFrequency, v], { p with spiFreq := v }),
      (.regselVersion (devAddr s.cfg h), [s.cfg.cmdVersion], { p with sel := .version }),
      (.regselKsi (devAddr s.cfg h), [s.cfg.cmdKeyscanInterval], { p with sel := .keyscanInterval }),
      (.regselSpi (devAddr s.cfg h), [s.cfg.cmdLedSpiFrequency], { p with sel := .spiFreq })],
    exec x.1 s = .next (((s.withPeriph (s.periph.set h x.2.2)).logged
      (.write (devAddr s.cfg h) x.2.1 0)).withResult (.status 0))

/-- A failing reference responder answers every write with status 2 and every read with `err(2)` and does not change
(20_memory.md R67), so a key read of its hand gives none; and a failed bank write is not repaired, since the dirty bit is
cleared all the same and setting the same colour again marks nothing (42_led_sync.md R177). -/
def Obligations.FailedBankWriteIsNotRepaired : Prop :=
  ∀ (s : State) (h : Hand), s.Ready → s.Unscripted → (s.periph.get h).fail = true →
    (∀ bytes, respondWrite (devAddr s.cfg h) bytes s = (2, s)) ∧ (∀ n, respondRead (devAddr s.cfg h) n s = (.err 2, s)) ∧
    exec (.sRdkeys h) s = .next ((s.logged (.read (devAddr s.cfg h) 5 (.err 2))).withResult (.optScan none)) ∧
    ∀ n : BitVec 2, n = s.cursor.get h + 1 → isDirty (s.dirty.get h) n = true →
      ∃ t, exec (.sUpdbank h) s = .next t ∧ t.periph = s.periph ∧
        t.busLog = s.busLog ++ [.write (devAddr s.cfg h) (bankFrameNow h n s) 2] ∧
        isDirty (t.dirty.get h) n = false ∧ t.fb = s.fb ∧
        ∀ i : BitVec 5, quantise s.cfg (ledAt (s.fb.get h) i) = ledAt (s.fb.get h) i →
          exec (.sSetlc h (i.setWidth 8) (ledAt (s.fb.get h) i)) t = .next (t.withResult .none)
end

