-- ==== Sys2Proof/Laws/State.lean ====
section
/-! SUPPORT. The small lemmas of the state: one per field per update, all true by `rfl` and in the simp set. Those of the
one-field writes (`State.withFb_fb`, `State.withFb_dirty`, …) are made by `@[simps]` where the writes stand, in
Machine/State.lean; here are those of the pairs and of the updates built from the writes. -/

namespace Sys2Proof

variable {α : Type}

@[simp] theorem Pair.get_left (p : Pair α) : p.get .left = p.left := rfl
@[simp] theorem Pair.get_right (p : Pair α) : p.get .right = p.right := rfl
@[simp] theorem Pair.set_left (p : Pair α) (v : α) : p.set .left v = ⟨v, p.right⟩ := rfl
@[simp] theorem Pair.set_right (p : Pair α) (v : α) : p.set .right v = ⟨p.left, v⟩ := rfl
@[simp] theorem Pair.get_both (v : α) (h : Hand) : (Pair.both v).get h = v := by cases h <;> rfl
@[simp] theorem Pair.get_set_same (p : Pair α) (h : Hand) (v : α) : (p.set h v).get h = v := by cases h <;> rfl

theorem Pair.get_set_other (p : Pair α) {h k : Hand} (hk : k ≠ h) (v : α) : (p.set h v).get k = p.get k := by
  cases h <;> cases k <;> first | rfl | exact absurd rfl hk

@[simp] theorem Pair.set_get (p : Pair α) (h : Hand) : p.set h (p.get h) = p := by cases h <;> rfl

theorem Pair.ext_get {p q : Pair α} (hl : p.get .left = q.get .left) (hr : p.get .right = q.get .right) : p = q := by
  cases p; cases q; simp_all

namespace Machine

@[simp] theorem State.logged_cfg (s : State) (t : Transaction) : (s.logged t).cfg = s.cfg := rfl
@[simp] theorem State.logged_currScan (s : State) (t : Transaction) : (s.logged t).currScan = s.currScan := rfl
@[simp] theorem State.logged_prevScan (s : State) (t : Transaction) : (s.logged t).prevScan = s.prevScan := rfl
@[simp] theorem State.logged_evPos (s : State) (t : Transaction) : (s.logged t).evPos = s.evPos := rfl
@[simp] theorem State.logged_lastFlush (s : State) (t : Transaction) : (s.logged t).lastFlush = s.lastFlush := rfl
@[simp] theorem State.logged_initialized (s : State) (t : Transaction) :
    (s.logged t).initialized = s.initialized := rfl
@[simp] theorem State.logged_halted (s : State) (t : Transaction) : (s.logged t).halted = s.halted := rfl
@[simp] theorem State.logged_fb (s : State) (t : Transaction) : (s.logged t).fb = s.fb := rfl
@[simp] theorem State.logged_dirty (s : State) (t : Transaction) : (s.logged t).dirty = s.dirty := rfl
@[simp] theorem State.logged_cursor (s : State) (t : Transaction) : (s.logged t).cursor = s.cursor := rfl
@[simp] theorem State.logged_powerEn (s : State) (t : Transaction) : (s.logged t).powerEn = s.powerEn := rfl
@[simp] theorem State.logged_busLog (s : State) (t : Transaction) : (s.logged t).busLog = s.busLog ++ [t] := rfl
@[simp] theorem State.logged_msNow (s : State) (t : Transaction) : (s.logged t).msNow = s.msNow := rfl
@[simp] theorem State.logged_overcurrent (s : State) (t : Transaction) :
    (s.logged t).overcurrent = s.overcurrent := rfl
@[simp] theorem State.logged_result (s : State) (t : Transaction) : (s.logged t).result = s.result := rfl
@[simp] theorem State.logged_hung (s : State) (t : Transaction) : (s.logged t).hung = s.hung := rfl
@[simp] theorem State.logged_inbox (s : State) (t : Transaction) : (s.logged t).inbox = s.inbox := rfl
@[simp] theorem State.logged_turns (s : State) (t : Transaction) : (s.logged t).turns = s.turns := rfl
@[simp] theorem State.logged_periph (s : State) (t : Transaction) : (s.logged t).periph = s.periph := rfl
@[simp] theorem State.logged_freeCtr (s : State) (t : Transaction) : (s.logged t).freeCtr = s.freeCtr := rfl

@[simp] theorem State.stuck_hung (s : State) : s.stuck.hung = true := rfl
@[simp] theorem State.stuck_result (s : State) : s.stuck.result = .none := rfl
@[simp] theorem State.stuck_cfg (s : State) : s.stuck.cfg = s.cfg := rfl
@[simp] theorem State.stuck_currScan (s : State) : s.stuck.currScan = s.currScan := rfl
@[simp] theorem State.stuck_prevScan (s : State) : s.stuck.prevScan = s.prevScan := rfl
@[simp] theorem State.stuck_evPos (s : State) : s.stuck.evPos = s.evPos := rfl
@[simp] theorem State.stuck_lastFlush (s : State) : s.stuck.lastFlush = s.lastFlush := rfl
@[simp] theorem State.stuck_initialized (s : State) : s.stuck.initialized = s.initialized := rfl
@[simp] theorem State.stuck_halted (s : State) : s.stuck.halted = s.halted := rfl
@[simp] theorem State.stuck_fb (s : State) : s.stuck.fb = s.fb := rfl
@[simp] theorem State.stuck_dirty (s : State) : s.stuck.dirty = s.dirty := rfl
@[simp] theorem State.stuck_cursor (s : State) : s.stuck.cursor = s.cursor := rfl
@[simp] theorem State.stuck_powerEn (s : State) : s.stuck.powerEn = s.powerEn := rfl
@[simp] theorem State.stuck_busLog (s : State) : s.stuck.busLog = s.busLog := rfl
@[simp] theorem State.stuck_msNow (s : State) : s.stuck.msNow = s.msNow := rfl
@[simp] theorem State.stuck_overcurrent (s : State) : s.stuck.overcurrent = s.overcurrent := rfl
@[simp] theorem State.stuck_inbox (s : State) : s.stuck.inbox = s.inbox := rfl
@[simp] theorem State.stuck_turns (s : State) : s.stuck.turns = s.turns := rfl
@[simp] theorem State.stuck_periph (s : State) : s.stuck.periph = s.periph := rfl
@[simp] theorem State.stuck_freeCtr (s : State) : s.stuck.freeCtr = s.freeCtr := rfl

theorem SameBlock.refl (s : State) : SameBlock s s := by constructor <;> rfl

theorem SameBlock.trans {s t u : State} (h : SameBlock s t) (k : SameBlock t u) : SameBlock s u := by
  cases h; cases k; constructor <;> simp_all

theorem NoBusTraffic.refl (s : State) : NoBusTraffic s s := by constructor <;> rfl

end Machine

end Sys2Proof
end

