-- ==== Sys2Proof/Laws/Ops.lean ====
section
/-! SUPPORT. One lemma per shared operation that says once everything it can do: the environment's turn, the two bus
primitives, sequencing, admission, and the peripheral that receives a transaction. Later proofs cite these and do not
unfold the operations. -/

namespace Sys2Proof.Machine

/-! ## The environment -/

theorem freeNonzero_ne_zero (s : State) : (freeNonzero s).1 ≠ 0 := by
  intro h
  have h' := congrArg BitVec.toNat h
  simp only [freeNonzero, BitVec.toNat_ofNat, BitVec.ofNat_eq_ofNat] at h'
  have := (Config.freeStatus s.freeCtr).isLt
  omega

/-- The environment's turn leaves the block, the history and the result alone and takes the first pending turn. -/
theorem takeTurn_keeps (s : State) :
    SameBlock s (takeTurn s).2 ∧ (takeTurn s).2.busLog = s.busLog ∧ (takeTurn s).2.result = s.result ∧
      (takeTurn s).2.turns = s.turns.drop 1 ∧ (takeTurn s).2.freeCtr = s.freeCtr := by
  unfold takeTurn
  split <;> rename_i heq <;> refine ⟨⟨?_, ?_, ?_, ?_, ?_, ?_, ?_, ?_, ?_, ?_, ?_, ?_, ?_, ?_, ?_⟩, ?_, ?_, ?_, ?_⟩ <;>
    simp [heq]

/-- If the environment answers the next transaction, its answer is not a hang. -/
theorem takeTurn_answered {s : State} (h : s.Answered 1) : (takeTurn s).1 ≠ .hang := by
  unfold takeTurn
  split
  · simp
  · rename_i t rest heq
    exact h t (by simp [heq])

/-- After n + 1 answered transactions are ahead and one is taken, n are ahead. -/
theorem State.Answered.drop_one {n : Nat} {s t : State} (h : s.Answered (n + 1)) (ht : t.turns = s.turns.drop 1) :
    t.Answered n := by
  intro x hx
  refine h x ?_
  rw [ht] at hx
  cases hs : s.turns with
  | nil => simp [hs] at hx
  | cons a l => simp only [hs, List.drop_succ_cons, List.drop_zero] at hx; simp [hx]

theorem State.Answered.mono {m n : Nat} {s : State} (h : s.Answered n) (hm : m ≤ n) : s.Answered m := fun t ht =>
  h t (List.take_subset_take_left _ hm ht)

theorem respondWrite_keeps (dev : BitVec 7) (bytes : List Byte) (s : State) :
    SameBlock s (respondWrite dev bytes s).2 ∧ (respondWrite dev bytes s).2.busLog = s.busLog ∧
      (respondWrite dev bytes s).2.result = s.result ∧ (respondWrite dev bytes s).2.turns = s.turns := by
  unfold respondWrite
  split <;> exact ⟨by constructor <;> rfl, rfl, rfl, rfl⟩

theorem respondRead_keeps (dev : BitVec 7) (n : Nat) (s : State) :
    SameBlock s (respondRead dev n s).2 ∧ (respondRead dev n s).2.busLog = s.busLog ∧
      (respondRead dev n s).2.result = s.result ∧ (respondRead dev n s).2.turns = s.turns := by
  unfold respondRead
  split <;> exact ⟨by constructor <;> rfl, rfl, rfl, rfl⟩

theorem forcedRead_keeps (n : Nat) (status : Byte) (bytes : List Byte) (s : State) :
    SameBlock s (forcedRead n status bytes s).2 ∧ (forcedRead n status bytes s).2.busLog = s.busLog ∧
      (forcedRead n status bytes s).2.result = s.result ∧ (forcedRead n status bytes s).2.turns = s.turns := by
  unfold forcedRead
  split
  · exact ⟨SameBlock.refl s, rfl, rfl, rfl⟩
  · split <;> exact ⟨by constructor <;> rfl, rfl, rfl, rfl⟩

/-! ## The bus primitives -/

/-- What a transaction that returned has done to the state: one more entry in the history and the environment's turn;
the block is as it was. -/
structure AfterTransaction (s t : State) (e : Transaction) : Prop where
  block : SameBlock s t
  busLog : t.busLog = s.busLog ++ [e]
  result : t.result = s.result
  turns : t.turns = s.turns.drop 1

/-- What a transaction that never returned has done to the state: the environment's turn. -/
structure AfterHang (s t : State) : Prop where
  block : SameBlock s t
  busLog : t.busLog = s.busLog
  result : t.result = s.result

/-- Everything `BusWrite` can do (20_memory.md R51). -/
theorem busWrite_cases (dev : BitVec 7) (bytes : List Byte) (s : State) :
    (∃ st t, busWrite dev bytes s = .returned st t ∧ AfterTransaction s t (.write dev bytes st)) ∨
      ∃ t, busWrite dev bytes s = .hung t ∧ AfterHang s t ∧ ¬ s.Answered 1 := by
  obtain ⟨hb, hl, hr, ht, -⟩ := takeTurn_keeps s
  unfold busWrite
  split
  · rename_i heq
    exact .inr ⟨_, rfl, ⟨hb, hl, hr⟩, fun h => takeTurn_answered h heq⟩
  · exact .inl ⟨_, _, rfl, hb.trans (by constructor <;> rfl), by simp [hl], by simp [hr], by simp [ht]⟩
  · obtain ⟨hb', hl', hr', ht'⟩ := respondWrite_keeps dev bytes (takeTurn s).2
    exact .inl ⟨_, _, rfl, (hb.trans hb').trans (by constructor <;> rfl), by simp [hl', hl], by simp [hr', hr],
      by simp [ht', ht]⟩

/-- Everything `BusRead` can do (20_memory.md R52). -/
theorem busRead_cases (dev : BitVec 7) (n : Nat) (s : State) :
    (∃ r t, busRead dev n s = .returned r t ∧ AfterTransaction s t (.read dev n r)) ∨
      ∃ t, busRead dev n s = .hung t ∧ AfterHang s t ∧ ¬ s.Answered 1 := by
  obtain ⟨hb, hl, hr, ht, -⟩ := takeTurn_keeps s
  unfold busRead
  split
  · rename_i heq
    exact .inr ⟨_, rfl, ⟨hb, hl, hr⟩, fun h => takeTurn_answered h heq⟩
  · rename_i status bytes heq
    obtain ⟨hb', hl', hr', ht'⟩ := forcedRead_keeps n status bytes (takeTurn s).2
    exact .inl ⟨_, _, rfl, (hb.trans hb').trans (by constructor <;> rfl), by simp [hl', hl], by simp [hr', hr],
      by simp [ht', ht]⟩
  · obtain ⟨hb', hl', hr', ht'⟩ := respondRead_keeps dev n (takeTurn s).2
    exact .inl ⟨_, _, rfl, (hb.trans hb').trans (by constructor <;> rfl), by simp [hl', hl], by simp [hr', hr],
      by simp [ht', ht]⟩

/-- An answered write returns. -/
theorem busWrite_returns (dev : BitVec 7) (bytes : List Byte) {s : State} (h : s.Answered 1) :
    ∃ st t, busWrite dev bytes s = .returned st t ∧ AfterTransaction s t (.write dev bytes st) :=
  (busWrite_cases dev bytes s).resolve_right fun ⟨_, _, _, hn⟩ => hn h

/-- An answered read returns. -/
theorem busRead_returns (dev : BitVec 7) (n : Nat) {s : State} (h : s.Answered 1) :
    ∃ r t, busRead dev n s = .returned r t ∧ AfterTransaction s t (.read dev n r) :=
  (busRead_cases dev n s).resolve_right fun ⟨_, _, _, hn⟩ => hn h

/-! ## Sequencing, the end of an operation, admission -/

@[simp] theorem BusRun.returned_andThen {α β : Type} (a : α) (s : State) (k : α → State → BusRun β) :
    (BusRun.returned a s).andThen k = k a s := rfl

@[simp] theorem BusRun.hung_andThen {α β : Type} (s : State) (k : α → State → BusRun β) :
    (BusRun.hung s : BusRun α).andThen k = .hung s := rfl

@[simp] theorem finish_returned (r : Result) (s : State) : finish (.returned r s) = .next (s.withResult r) := rfl

@[simp] theorem finish_hung (s : State) : finish (.hung s) = .next s.stuck := rfl

/-- If a run answers a next state, the configuration is well formed, and the run answered it. -/
theorem whenConfigured_next {s t : State} {run : Host.Outcome State Fault Refusal}
    (h : whenConfigured s run = .next t) : configOk s.cfg = true ∧ run = .next t := by
  unfold whenConfigured at h
  split at h
  · exact ⟨‹_›, h⟩
  · cases h

theorem whenConfigured_of_ok {s : State} (h : configOk s.cfg = true) (run : Host.Outcome State Fault Refusal) :
    whenConfigured s run = run := if_pos h

/-- Under an ill-formed configuration everything is refused (00_scope.md R4). -/
theorem whenConfigured_of_bad {s : State} (h : configOk s.cfg = false) (run : Host.Outcome State Fault Refusal) :
    whenConfigured s run = .refused .illFormedConfig := by
  rw [whenConfigured, h, if_neg Bool.false_ne_true]

/-- If an admitted run answers a next state, the block was live, and the run answered it. -/
theorem whenLive_next {s t : State} {run : Host.Outcome State Fault Refusal} (h : whenLive s run = .next t) :
    s.Live ∧ run = .next t := by
  obtain ⟨hc, h⟩ := whenConfigured_next h
  split at h
  · cases h
  · split at h
    · cases h
    · rename_i h1 h2
      exact ⟨⟨hc, by simpa using h1, by simpa using h2⟩, h⟩

/-- If an admitted operation answers a next state, the block was ready, and the run answered it. -/
theorem whenAdmitted_next {s t : State} {run : Host.Outcome State Fault Refusal} (h : whenAdmitted s run = .next t) :
    s.Ready ∧ run = .next t := by
  obtain ⟨hl, h⟩ := whenLive_next h
  split at h
  · rename_i hi
    exact ⟨⟨hl, hi⟩, h⟩
  · cases h

theorem whenLive_of_live {s : State} (h : s.Live) (run : Host.Outcome State Fault Refusal) :
    whenLive s run = run := by
  obtain ⟨h1, h2, h3⟩ := h
  simp [whenLive, whenConfigured_of_ok h1, h2, h3]

theorem whenAdmitted_of_ready {s : State} (h : s.Ready) (run : Host.Outcome State Fault Refusal) : whenAdmitted s run = run := by
  rw [whenAdmitted, whenLive_of_live h.1, if_pos h.2]

/-! ## Answers the environment gives itself -/

/-- A write that the environment answers itself returns its status (20_memory.md R51, R58 a). -/
theorem busWrite_forced (dev : BitVec 7) (bytes : List Byte) {s : State} {f : Byte} (h : s.forcedStatus 0 = some f) :
    ∃ t, busWrite dev bytes s = .returned f t ∧ AfterTransaction s t (.write dev bytes f) := by
  cases hs : s.turns with
  | nil => simp [State.forcedStatus, hs] at h
  | cons a ts =>
    obtain ⟨l, r, ans⟩ := a
    cases ans with
    | responder => simp [State.forcedStatus, hs] at h
    | hang => simp [State.forcedStatus, hs] at h
    | forced status bs =>
      obtain rfl : status = f := by simpa [State.forcedStatus, hs] using h
      have hb : busWrite dev bytes s = writeReturned dev bytes (status, (takeTurn s).2) := by
        simp [busWrite, takeTurn, hs]
      obtain ⟨hk, hl, hr, ht, -⟩ := takeTurn_keeps s
      exact ⟨_, hb, hk.trans (by constructor <;> rfl), by simp [hl], by simp [hr], by simp [ht]⟩

/-- After one transaction the statuses still forced are the later ones. -/
theorem forcedStatus_drop_one {s t : State} (h : t.turns = s.turns.drop 1) (n : Nat) :
    t.forcedStatus n = s.forcedStatus (n + 1) := by
  simp [State.forcedStatus, h]

/-- A write that hangs takes the environment's turn and nothing else (60_exceptions.md R215). -/
theorem busWrite_hang (dev : BitVec 7) (bytes : List Byte) {s : State} {ts : List Turn}
    (h : s.turns = ⟨none, none, .hang⟩ :: ts) : busWrite dev bytes s = .hung (s.withTurns ts) := by
  simp only [busWrite, takeTurn, h]
  rfl

/-- A read that hangs takes the environment's turn and nothing else (60_exceptions.md R215). -/
theorem busRead_hang (dev : BitVec 7) (n : Nat) {s : State} {ts : List Turn}
    (h : s.turns = ⟨none, none, .hang⟩ :: ts) : busRead dev n s = .hung (s.withTurns ts) := by
  simp only [busRead, takeTurn, h]
  rfl

theorem stuck_withTurns (s : State) (ts : List Turn) : (s.withTurns ts).stuck = s.stuckBefore ts := rfl

/-- A read that the environment answers with these bytes, all of them asked for, returns them (20_memory.md R52). -/
theorem busRead_reply (dev : BitVec 7) (bytes : List Byte) (s : State) :
    busRead dev bytes.length (s.withTurns (⟨none, none, .forced 0 bytes⟩ :: s.turns)) =
      .returned (.ok bytes) (s.logged (.read dev bytes.length (.ok bytes))) := by
  simp only [busRead, takeTurn, State.withTurns_turns, forcedRead, readReturned]
  simp
  rfl

/-! ## Bare transactions -/

/-- A well-formed bare transaction of a ready block is issued. -/
theorem whenIssued_of_wellFormed {i : Instr} {s : State} (hr : s.Ready) (hw : i.wellFormed s.cfg = true)
    (run : Host.Outcome State Fault Refusal) : whenIssued i s run = run := by
  rw [whenIssued, whenAdmitted_of_ready hr, if_pos hw]

/-- An ill-formed bare transaction of a ready block is refused. -/
theorem whenIssued_of_illFormed {i : Instr} {s : State} (hr : s.Ready) (hw : i.wellFormed s.cfg = false)
    (run : Host.Outcome State Fault Refusal) : whenIssued i s run = .refused .illFormedTransaction := by
  rw [whenIssued, whenAdmitted_of_ready hr, hw, if_neg Bool.false_ne_true]

/-- Before SETUP a live block refuses every bare transaction. -/
theorem whenIssued_of_uninitialised {i : Instr} {s : State} (hl : s.Live) (hi : s.initialized = false)
    (run : Host.Outcome State Fault Refusal) : whenIssued i s run = .refused .beforeSetup := by
  rw [whenIssued, whenAdmitted, whenLive_of_live hl, hi, if_neg Bool.false_ne_true]

/-- If a bare transaction answers a next state, the block was ready, the transaction well formed, and it was issued. -/
theorem whenIssued_next {i : Instr} {s t : State} {run : Host.Outcome State Fault Refusal}
    (h : whenIssued i s run = .next t) : s.Ready ∧ i.wellFormed s.cfg = true ∧ run = .next t := by
  obtain ⟨hr, h⟩ := whenAdmitted_next h
  split at h
  · exact ⟨hr, ‹_›, h⟩
  · cases h

/-! ## The peripheral that receives a transaction -/

/-- A failing peripheral answers a write with status 2 and does not change (20_memory.md R67). -/
theorem takeWrite_fail (cfg : Config) (dev : BitVec 7) (bytes : List Byte) {p : Periph} (h : p.fail = true) :
    p.takeWrite cfg dev bytes = (2, p) := by simp [Periph.takeWrite, h]

/-- A failing peripheral answers a read with `err(2)` and does not change (20_memory.md R67). -/
theorem takeRead_fail (cfg : Config) (n : Nat) {p : Periph} (h : p.fail = true) :
    p.takeRead cfg n = (.err 2, p) := by simp [Periph.takeRead, h]

/-- A healthy peripheral takes a frame (20_memory.md R61 to R65). -/
theorem takeWrite_frame {cfg : Config} {dev : BitVec 7} {bytes : List Byte} {p : Periph} {i : Instr}
    (h : p.fail = false) (hd : decodeFrame cfg dev bytes = .ok i) :
    p.takeWrite cfg dev bytes = (0, receiveFrame p i) := by simp [Periph.takeWrite, h, hd]

end Sys2Proof.Machine
end

