-- ==== Sys2Proof/Laws/Operands.lean ====
section
/-! SUPPORT. One lemma per operand and flag operation that says what reading it after writing it gives: LED arrays, dirty
masks, scan words, device addresses, address operands. -/

namespace Sys2Proof.Machine

/-! ## LED arrays and dirty masks -/

/-- Reading an LED array after one write. -/
theorem ledAt_setLed {α : Type} (leds : Vector α 32) (i j : BitVec 5) (v : α) :
    ledAt (setLed leds i v) j = if j = i then v else ledAt leds j := by
  unfold ledAt setLed
  rw [Vector.getElem_set]
  simp only [eq_comm (a := i.toNat), BitVec.toNat_inj]

/-- Reading an LED array filled with one value. -/
@[simp] theorem ledAt_replicate {α : Type} (v : α) (j : BitVec 5) : ledAt (Vector.replicate 32 v) j = v := by
  simp [ledAt]

/-- A dirty mask after one bank was marked. -/
theorem isDirty_markDirty (mask : BitVec 4) (n m : BitVec 2) :
    isDirty (markDirty mask n) m = (isDirty mask m || decide (m = n)) := by
  unfold isDirty markDirty bankBit
  decide +revert +kernel

/-- A dirty mask after one bank was cleaned. -/
theorem isDirty_markClean (mask : BitVec 4) (n m : BitVec 2) :
    isDirty (markClean mask n) m = (isDirty mask m && !decide (m = n)) := by
  unfold isDirty markClean bankBit
  decide +revert +kernel

/-- No bank of an empty mask is dirty. -/
@[simp] theorem isDirty_zero (n : BitVec 2) : isDirty 0 n = false := by simp [isDirty]

/-- Two masks with the same dirty banks are equal. -/
theorem mask_ext {a b : BitVec 4} (h : ∀ n, isDirty a n = isDirty b n) : a = b := by
  refine BitVec.eq_of_getLsbD_eq fun i hi => ?_
  have := h (BitVec.ofNat 2 i)
  rwa [isDirty, isDirty, BitVec.toNat_ofNat, Nat.mod_eq_of_lt (by omega)] at this

/-- An LED index is the slot of its bank. -/
@[simp] theorem bankLed_ledBankOf (i : BitVec 5) : bankLed (ledBankOf i) (ledSlotOf i) = i := by
  unfold bankLed ledBankOf ledSlotOf
  decide +revert +kernel

@[simp] theorem ledBankOf_bankLed (n : BitVec 2) (j : BitVec 3) : ledBankOf (bankLed n j) = n := by
  unfold bankLed ledBankOf
  decide +revert +kernel

/-- The eight writes of a bank frame, read back (20_memory.md R63). -/
theorem ledAt_writeBank_slot (leds : Vector Bgr 32) (n : BitVec 2) (ws : Vector Bgr 8) (j : BitVec 3) :
    ledAt (writeBank leds n ws) (bankLed n j) = ws[j.toNat]'(j.isLt) := by
  have hne : ∀ a b : BitVec 3, (bankLed n a = bankLed n b) = (a = b) := by
    unfold bankLed; decide +revert +kernel
  simp only [writeBank, ledAt_setLed, hne]
  have : j = 0 ∨ j = 1 ∨ j = 2 ∨ j = 3 ∨ j = 4 ∨ j = 5 ∨ j = 6 ∨ j = 7 := by decide +revert
  rcases this with rfl | rfl | rfl | rfl | rfl | rfl | rfl | rfl <;> rfl

/-- A bank frame leaves the other banks alone (20_memory.md R63). -/
theorem ledAt_writeBank_other (leds : Vector Bgr 32) {n : BitVec 2} (ws : Vector Bgr 8) {i : BitVec 5}
    (h : ledBankOf i ≠ n) : ledAt (writeBank leds n ws) i = ledAt leds i := by
  have hne : ∀ j, (i = bankLed n j) = False := fun j => eq_false fun he => h (by rw [he, ledBankOf_bankLed])
  simp only [writeBank, ledAt_setLed, hne, if_false]

/-! ## Address operands and device addresses -/

/-- A valid LED index operand is the index. -/
@[simp] theorem indexOperand_setWidth (i : BitVec 5) : indexOperand (i.setWidth 8) = some i := by
  unfold indexOperand
  decide +revert +kernel

/-- A valid KeyAddr operand is the address. -/
@[simp] theorem keyOperand_setWidth (k : BitVec 6) : keyOperand (k.setWidth 8) = some k := by
  unfold keyOperand
  decide +revert +kernel

theorem indexOperand_none {a : Byte} (h : 32 ≤ a.toNat) : indexOperand a = none := if_neg (by omega)

theorem keyOperand_none {a : Byte} (h : 64 ≤ a.toNat) : keyOperand a = none := if_neg (by omega)

/-- The device address of a hand names that hand, if the two addresses differ. -/
theorem handOfDev_devAddr {cfg : Config} (hne : devAddr cfg .left ≠ devAddr cfg .right) (h : Hand) :
    handOfDev cfg (devAddr cfg h) = some h := by
  cases h
  · simp [handOfDev]
  · simp [handOfDev, hne.symm]

/-- The device address of a hand is one of the block's two. -/
@[simp] theorem deviceOk_devAddr (cfg : Config) (h : Hand) : deviceOk cfg (devAddr cfg h) = true := by
  cases h <;> simp [deviceOk, devAddr]

/-! ## Scan words and the time difference -/

@[simp] theorem scanBank_scanOfBanks_zero (b0 b1 b2 b3 : Byte) : scanBank (scanOfBanks b0 b1 b2 b3) 0 = b0 := by
  refine BitVec.eq_of_getLsbD_eq fun i hi => ?_
  simp only [scanBank, scanOfBanks, BitVec.getLsbD_extractLsb', BitVec.getLsbD_append]
  simp [hi, BitVec.getLsbD_eq_getElem]

@[simp] theorem scanOfBanks_scanBank (d : Scan) :
    scanOfBanks (scanBank d 0) (scanBank d 1) (scanBank d 2) (scanBank d 3) = d := by
  refine BitVec.eq_of_getLsbD_eq fun i hi => ?_
  simp only [scanOfBanks, scanBank, BitVec.getLsbD_append, BitVec.getLsbD_extractLsb']
  rcases Nat.lt_or_ge i 8 with h | h
  · simp [h]
  rcases Nat.lt_or_ge i 16 with h' | h'
  · have : i - 8 < 8 := by omega
    simp [show ¬ i < 8 by omega, this, show 8 + (i - 8) = i by omega]
  rcases Nat.lt_or_ge i 24 with h'' | h''
  · have : i - 16 < 8 := by omega
    simp [show ¬ i < 8 by omega, show ¬ i - 8 < 8 by omega, show i - 8 - 8 < 8 by omega,
      show 16 + (i - 8 - 8) = i by omega]
  · simp [show ¬ i < 8 by omega, show ¬ i - 8 < 8 by omega, show ¬ i - 8 - 8 < 8 by omega,
      show i - 8 - 8 - 8 < 8 by omega, show 24 + (i - 8 - 8 - 8) = i by omega]

/-- The elapsed time is below the counter's modulus. -/
theorem elapsedMs_lt (cfg : Config) (now last : Nat) : elapsedMs cfg now last < 2 ^ cfg.timerBits :=
  Nat.mod_lt _ (Nat.two_pow_pos _)

end Sys2Proof.Machine
end

