-- ==== Sys2Proof/Laws/PerInstr.lean ====
section
/-! SUPPORT. A property of every instruction as syntax, one lemma per constructor: its encoding has the number of bytes
of its row in spec/opcode_table.json. -/

namespace Sys2Proof.Laws.EncodedLength

open Sys2Proof

/-- The encoding has `length_bytes` bytes under every configuration (sizes of 20_memory.md R50 and 30_encoding.md
R100). -/
def Statement (i : Instr) : Prop := ∀ cfg : Config, (encode cfg i).bytes.length = i.lengthBytes

theorem setup : Statement .setup := fun _ => rfl
theorem scanm : Statement .scanm := fun _ => rfl
theorem nextev : Statement .nextev := fun _ => rfl
theorem updleds : Statement .updleds := fun _ => rfl
theorem setkc (k : Byte) (c : Color) : Statement (.setkc k c) := fun _ => rfl
theorem getkc (k : Byte) : Statement (.getkc k) := fun _ => rfl
theorem setksi (v : Byte) : Statement (.setksi v) := fun _ => rfl
theorem ledpf : Statement .ledpf := fun _ => rfl
theorem reboot : Statement .reboot := fun _ => rfl
theorem sRdkeys (h : Hand) : Statement (.sRdkeys h) := fun _ => rfl
theorem sSetlc (h : Hand) (i : Byte) (c : Color) : Statement (.sSetlc h i c) := fun _ => rfl
theorem sGetlc (h : Hand) (i : Byte) : Statement (.sGetlc h i) := fun _ => rfl
theorem sUpdbank (h : Hand) : Statement (.sUpdbank h) := fun _ => rfl
theorem sUpdled (h : Hand) (i : Byte) (c : Color) : Statement (.sUpdled h i c) := fun _ => rfl
theorem sUpdall (h : Hand) (c : Color) : Statement (.sUpdall h c) := fun _ => rfl
theorem sSetksi (h : Hand) (v : Byte) : Statement (.sSetksi h v) := fun _ => rfl
theorem sSetspi (h : Hand) (v : Byte) : Statement (.sSetspi h v) := fun _ => rfl
theorem sRdver (h : Hand) : Statement (.sRdver h) := fun _ => rfl
theorem sRdksi (h : Hand) : Statement (.sRdksi h) := fun _ => rfl
theorem sRdspi (h : Hand) : Statement (.sRdspi h) := fun _ => rfl
theorem ledSetOne (dev : BitVec 7) (index : Byte) (w : Bgr) : Statement (.ledSetOne dev index w) := fun _ => rfl
theorem ledSetAll (dev : BitVec 7) (w : Bgr) : Statement (.ledSetAll dev w) := fun _ => rfl
theorem ledBank (dev : BitVec 7) (n : BitVec 2) (ws : Vector Bgr 8) : Statement (.ledBank dev n ws) := fun cfg => by
  simp [encode, Packet.bytes, ledBankFrame, bgrBytes, Instr.lengthBytes, List.length_flatMap]
theorem keyscanInterval (dev : BitVec 7) (v : Byte) : Statement (.keyscanInterval dev v) := fun _ => rfl
theorem ledSpiFrequency (dev : BitVec 7) (v : Byte) : Statement (.ledSpiFrequency dev v) := fun _ => rfl
theorem regselVersion (dev : BitVec 7) : Statement (.regselVersion dev) := fun _ => rfl
theorem regselKsi (dev : BitVec 7) : Statement (.regselKsi dev) := fun _ => rfl
theorem regselSpi (dev : BitVec 7) : Statement (.regselSpi dev) := fun _ => rfl
theorem keydata (dev : BitVec 7) (bank0 bank1 bank2 bank3 : Byte) : Statement (.keydata dev bank0 bank1 bank2 bank3) := fun _ => rfl
theorem reg (dev : BitVec 7) (v : Byte) : Statement (.reg dev v) := fun _ => rfl

end Sys2Proof.Laws.EncodedLength
end

