-- ==== Sys2Proof/Tests/Slice0.lean ====
section
/-! SUPPORT. Tests. Every expected value is a vector of spec/95_test_vectors.md (named at the test) or a hand calculation
from the rule named; then, for every obligation with hypotheses, a concrete state and operands that meet them. -/

namespace Sys2Proof.Tests

set_option Elab.async false

open Sys2Proof Sys2Proof.Machine

/-! ## Helpers -/

/-- The outcome of an operation or a step. -/
abbrev Out := Host.Outcome State Fault Refusal

/-- What a next state shows, if there is one. -/
def sees {α : Type} (f : State → α) : Out → Option α
  | .next t => some (f t)
  | .fault _ => none
  | .refused _ => none

/-- There is a next state. -/
def isNext : Out → Bool
  | .next _ => true
  | .fault _ => false
  | .refused _ => false

/-- The refusal of an outcome, if it is one. -/
def refusal : Out → Option Refusal
  | .refused r => some r
  | .next _ => none
  | .fault _ => none

theorem next_exists {o : Out} (h : isNext o = true) : ∃ t, o = .next t := by
  cases o with
  | next t => exact ⟨t, rfl⟩
  | fault r => cases h
  | refused r => cases h

/-- An initialised block on healthy responders: nothing else is set up. -/
def ready : State := State.reset.withInitialized true

/-- The same block as SETUP leaves it (`ev_pos` = 64). -/
def afterSetup : State := ready.withEvPos 64

/-- The environment answers one transaction with this status and these bytes. -/
def answer (st : Byte) (bytes : List Byte) : Turn := ⟨none, none, .forced st bytes⟩

/-- The environment does not answer one transaction. -/
def silence : Turn := ⟨none, none, .hang⟩

/-- A peripheral whose transactions all fail. -/
def failing : Periph := { Periph.reset with fail := true }

/-- The results of some instructions, one after another. -/
def results : List Instr → State → List Result
  | [], _ => []
  | i :: rest, s =>
    match exec i s with
    | .next t => t.result :: results rest t
    | .fault _ => []
    | .refused _ => []

/-- The transactions of some instructions. -/
def traffic (is : List Instr) (s : State) : Option (List Transaction) := sees State.busLog (execAll is s)

/-- The default configuration in the packed colour mode. -/
def packedConfig : Config := { Config.default with colorMode := .rgb555 }

/-! ## Well-formedness: an ill-formed term for each check -/

theorem test_wf_index_refused : (Instr.ledSetOne 0x58 32 ⟨0, 0, 0⟩).wellFormed Config.default = false := by decide
theorem test_wf_index_limit : (Instr.ledSetOne 0x5B 31 ⟨0, 0, 0⟩).wellFormed Config.default = true := by decide
theorem test_wf_device_refused : (Instr.regselKsi 0x59).wellFormed Config.default = false := by decide
theorem test_wf_reply_device_refused : (Instr.keydata 0x5A 0 0 0 0).wellFormed Config.default = false := by decide

/-- V-ENC-5. -/
theorem test_cfg_addresses_refused :
    configOk { Config.default with busAddrBase := 0x59 } = false := by decide +kernel
/-- V-ENC-6. -/
theorem test_cfg_bank_base_refused :
    configOk { Config.default with cmdLedBankBase := 0xFD } = false := by decide +kernel
/-- V-ENC-7. -/
theorem test_cfg_commands_refused :
    configOk { Config.default with cmdLedBankBase := 0x01 } = false := by decide +kernel
/-- 00_scope.md R4 (c): two keys on one LED. -/
theorem test_cfg_map_refused :
    configOk { Config.default with keyLedMap := Config.identityMap.set 1 0 } = false := by decide +kernel
/-- R4 (d): a gamma table that steps down. -/
theorem test_cfg_gamma_refused :
    configOk { Config.default with gamma := Config.gammaDefault.set 0 1 } = false := by decide +kernel
/-- R4 (e): an interval of 2^TIMER_BITS. -/
theorem test_cfg_interval_refused :
    configOk { Config.default with ledFlushIntervalMs := 65536 } = false := by decide +kernel
theorem test_cfg_default : configOk Config.default = true := by decide +kernel

/-! ## Decoding: one word for every row, from 30_encoding.md R100 and R81 to R89

A host packet's bytes are `opsel` and the operands of R100's table. -/

theorem test_decode_keyboard_operations :
    (decodeHost [0x00] matches .ok (.setup, [])) ∧ (decodeHost [0x01] matches .ok (.scanm, [])) ∧
    (decodeHost [0x02] matches .ok (.nextev, [])) ∧ (decodeHost [0x03] matches .ok (.updleds, [])) ∧
    decodeHost [0x05, 9] = .ok (.getkc 9, []) ∧ (decodeHost [0x07] matches .ok (.ledpf, [])) ∧
    (decodeHost [0x08] matches .ok (.reboot, [])) := by decide

/-- V-ENC-18 and the operand order r, g, b. -/
theorem test_decode_operand_order :
    decodeHost [0x04, 9, 0x00, 0xFF, 0x00] = .ok (.setkc 9 ⟨0, 255, 0⟩, []) ∧
    decodeHost [0x14, 1, 0x1F, 0x10, 0x20, 0x30] = .ok (.sUpdled .right 31 ⟨16, 32, 48⟩, []) ∧
    decodeHost [0x06, 0x32] = .ok (.setksi 50, []) ∧ decodeHost [0x19, 1] = .ok (.sRdksi .right, []) := by decide

theorem test_decode_scanner_operations :
    decodeHost [0x10, 0] = .ok (.sRdkeys .left, []) ∧
    decodeHost [0x11, 1, 0x10, 1, 2, 3] = .ok (.sSetlc .right 16 ⟨1, 2, 3⟩, []) ∧
    decodeHost [0x12, 0, 9] = .ok (.sGetlc .left 9, []) ∧ decodeHost [0x13, 1] = .ok (.sUpdbank .right, []) ∧
    decodeHost [0x15, 0, 1, 2, 3] = .ok (.sUpdall .left ⟨1, 2, 3⟩, []) ∧
    decodeHost [0x16, 1, 50] = .ok (.sSetksi .right 50, []) ∧ decodeHost [0x17, 1, 4] = .ok (.sSetspi .right 4, []) ∧
    decodeHost [0x18, 0] = .ok (.sRdver .left, []) ∧ decodeHost [0x1A, 1] = .ok (.sRdspi .right, []) := by decide

/-- V-ENC-9, 10, 12, 13. -/
theorem test_decode_frames :
    decodeFrame Config.default 0x5B [0x04, 0x1F, 0x09, 0x04, 0x01] = .ok (.ledSetOne 0x5B 31 ⟨9, 4, 1⟩) ∧
    decodeFrame Config.default 0x58 [0x03, 0xFF, 0xFE, 0xFD] = .ok (.ledSetAll 0x58 ⟨0xFF, 0xFE, 0xFD⟩) ∧
    decodeFrame Config.default 0x5B [0x02, 0x32] = .ok (.keyscanInterval 0x5B 50) ∧
    decodeFrame Config.default 0x58 [0x06, 0x04] = .ok (.ledSpiFrequency 0x58 4) ∧
    decodeFrame Config.default 0x58 [0x01] = .ok (.regselVersion 0x58) ∧
    decodeFrame Config.default 0x58 [0x02] = .ok (.regselKsi 0x58) ∧
    decodeFrame Config.default 0x58 [0x06] = .ok (.regselSpi 0x58) := by decide +kernel

/-- V-ENC-11: the first LED of bank 2 white, the rest black. -/
theorem test_decode_bank_frame :
    decodeFrame Config.default 0x5B (0x82 :: 1 :: 2 :: 3 :: List.replicate 21 0) =
      .ok (.ledBank 0x5B 2 ⟨⟨⟨1, 2, 3⟩ :: List.replicate 7 ⟨0, 0, 0⟩⟩, rfl⟩) := by decide +kernel

/-- V-ENC-14, and the one-byte reply of R89. -/
theorem test_decode_replies :
    decodeReply Config.default 0x5B [0x01, 0x01, 0x00, 0x00, 0x80] = .ok (.keydata 0x5B 1 0 0 0x80) ∧
    decodeReply Config.default 0x58 [0x32] = .ok (.reg 0x58 50) := by decide +kernel

/-- V-ENC-17, and frames of no row (R99): a wrong length, an unknown command. -/
theorem test_decode_refusals :
    decodeHost [0x09] = .error .unknownOpsel ∧ decodeHost [0x0F] = .error .unknownOpsel ∧
    decodeHost [0x1B] = .error .unknownOpsel ∧ decodeHost [0xFF] = .error .unknownOpsel ∧
    decodeHost [0x10, 2] = .error .badHand ∧ decodeHost [0x06] = .error .missingOperand ∧
    decodeHost [] = .error .noOpsel ∧
    decodeFrame Config.default 0x58 [0x03, 0, 0] = .error .unknownFrame ∧
    decodeFrame Config.default 0x58 [0x84] = .error .unknownFrame ∧
    decodeReply Config.default 0x58 [0x00, 0x20, 0, 0, 0] = .error .wrongTag := by decide +kernel

/-- A word of the opcode table with the bits of two bytes: GETKC 9. -/
theorem test_table_word : decodeTableWord 16 0x0905 = some (.getkc 9) := by decide +kernel

/-- A table word runs as the first instruction after reset: S.RDKEYS of the right hand. -/
theorem test_fetch_word : sees State.result (step (State.reset.withFetchWord 16 0x0110)) = some (.optScan (some 0)) := by
  decide +kernel

/-! ## Operands -/

/-- V-ENC-1. -/
theorem test_key_address_fields :
    (keyHand 40, keyBank 40, keyBitpos 40, keyGlobalBank 40) = (.right, 1, 0, 5) ∧
    (keyHand 31, keyBank 31, keyBitpos 31, keyGlobalBank 31) = (.left, 3, 7, 3) := by decide

/-- V-ENC-2. -/
theorem test_led_address_fields :
    (ledHand 41, ledIndex 41, ledBankOf (ledIndex 41), ledSlotOf (ledIndex 41)) = (.right, 9, 1, 1) ∧
    (ledHand 31, ledIndex 31) = (.left, 31) := by decide

/-- V-ENC-3, V-ENC-4. -/
theorem test_device_addresses :
    devAddr Config.default .left = 0x58 ∧ devAddr Config.default .right = 0x5B ∧
    devAddr { Config.default with busAddrBase := 0x20, rightSel := 1 } .right = 0x21 := by decide +kernel

/-- The gamma spot values of section 2.1, and V-ENC-8. -/
theorem test_gamma :
    [0, 1, 11, 12, 16, 32, 48, 64, 127, 128, 200, 254, 255].map (gammaOf Config.default) =
      [0, 0, 0, 1, 1, 4, 9, 16, 63, 64, 157, 253, 255] ∧
    wire Config.default ⟨0x10, 0x20, 0x30⟩ = ⟨9, 4, 1⟩ := by decide +kernel

/-- V-ENC-15. -/
theorem test_event_words :
    eventWord (some ⟨5, false, true⟩) = 0x8501 ∧ eventWord (some ⟨5, true, false⟩) = 0x8502 ∧
    eventWord (some ⟨63, false, true⟩) = 0xBF01 ∧ eventWord none = 0 := by decide

/-- V-ENC-16 and the working of program P7. -/
theorem test_packed_words :
    packColor ⟨0xFF, 0x80, 0x07⟩ = 0x021F ∧ packColor ⟨0x12, 0x34, 0x56⟩ = 0x28C2 ∧
    packColor ⟨247, 132, 8⟩ = 0x061E ∧ unpackColor 0x021F = ⟨255, 132, 0⟩ := by decide

/-- The host-port bytes of V-BUS-1, V-BUS-10, P3 and V-SYS-7; the zeros of a none scan are the model's (log 28). -/
theorem test_result_bytes :
    resultBytes (.optScan (some 0x00000020)) = [1, 0x20, 0, 0, 0] ∧ resultBytes (.optByte (some 3)) = [1, 3] ∧
    resultBytes (.optColor (some ⟨0, 255, 0⟩)) = [1, 0, 255, 0] ∧ resultBytes (.bool true) = [1] ∧
    resultBytes (.optScan none) = [0, 0, 0, 0, 0] := by decide

/-! ## The operations, by the vectors of section 2 -/

/-- V-SYS-1 with `ms_now` = 100. -/
theorem test_setup : sees (fun t => (t.lastFlush, t.evPos, t.powerEn, t.initialized, t.busLog))
    (exec .setup (State.reset.withMsNow 100)) = some (100, 64, true, true,
      [.write 0x58 [3, 0, 0, 0] 0, .write 0x5B [3, 0, 0, 0] 0]) := by decide +kernel

/-- V-SYS-2: both hands failing. -/
theorem test_setup_failing : sees (fun t => (t.initialized, t.busLog, t.periph))
    (exec .setup (State.reset.withPeriph ⟨failing, failing⟩)) = some (true,
      [.write 0x58 [3, 0, 0, 0] 2, .write 0x5B [3, 0, 0, 0] 2], ⟨failing, failing⟩) := by decide +kernel

/-- V-EXC-8: a failing left hand does not stop the right. -/
theorem test_scanm : sees (fun t => (t.currScan, t.prevScan, t.evPos, t.busLog))
    (exec .scanm ((afterSetup.withCurrScan ⟨8, 0⟩).withPeriph ⟨failing, { Periph.reset with keys := 1 }⟩)) =
      some (⟨8, 1⟩, ⟨8, 0⟩, 0, [.read 0x58 5 (.err 2), .read 0x5B 5 (.ok [1, 1, 0, 0, 0])]) := by decide +kernel

/-- V-KEY-7: a wrong tag. -/
theorem test_scanm_wrong_tag : sees (fun t => (t.currScan, t.turns))
    (exec .scanm (afterSetup.withTurns [answer 0 [0, 0xFF, 0, 0, 0]])) = some (⟨0, 0⟩, []) := by decide +kernel

/-- V-KEY-4. -/
theorem test_nextev : results (List.replicate 4 .nextev)
    (((ready.withPrevScan ⟨0x00000081, 0x01000000⟩).withCurrScan ⟨0x00000180, 0⟩)) =
      [.optEvent (some ⟨0, true, false⟩), .optEvent (some ⟨8, false, true⟩), .optEvent (some ⟨56, true, false⟩),
        .optEvent none] := by decide +kernel

/-- V-KEY-3: the position after an event, and after the last one. -/
theorem test_nextev_position :
    sees State.evPos (exec .nextev (ready.withCurrScan ⟨0x20, 0⟩)) = some 6 ∧
    sees State.evPos (execAll [.nextev, .nextev] (ready.withCurrScan ⟨0x20, 0⟩)) = some 64 := by decide +kernel

/-- V-LED-13: across a wrap of the counter, elapsed 31 is gated and 32 fires. -/
theorem test_updleds_wrap :
    sees State.lastFlush (exec .updleds ((afterSetup.withLastFlush 65530).withMsNow 25)) = some 65530 ∧
    sees (fun t => (t.lastFlush, t.cursor)) (exec .updleds ((afterSetup.withLastFlush 65530).withMsNow 26)) =
      some (26, ⟨1, 1⟩) := by decide +kernel

/-- R55, R172: after a delivered flush the LED shows the frame buffer, gamma-corrected (V-ENC-8); LEDs of another bank do
not change. -/
theorem test_flush_reaches_the_led : sees (fun t => (ledAt t.periph.left.leds 9, ledAt t.periph.left.leds 16))
    (execAll [.sSetlc .left 9 ⟨0x10, 0x20, 0x30⟩, .sSetlc .left 16 ⟨255, 255, 255⟩, .sUpdbank .left] afterSetup) =
      some (⟨9, 4, 1⟩, ⟨0, 0, 0⟩) := by decide +kernel

/-- V-LED-20: left before right; both selected banks dirty. -/
theorem test_updleds_order : traffic [.updleds] ((afterSetup.withDirty ⟨0b0010, 0b0110⟩).withMsNow 32) =
    some [.write 0x58 (0x81 :: List.replicate 24 0) 0, .write 0x5B (0x81 :: List.replicate 24 0) 0] := by
  decide +kernel

/-- V-LED-15. -/
theorem test_setkc : sees (fun t => (ledAt t.fb.right 9, t.dirty)) (exec (.setkc 41 ⟨0, 255, 0⟩) afterSetup) =
    some (⟨0, 255, 0⟩, ⟨0, 0b0010⟩) := by decide +kernel

theorem test_getkc : results [.setkc 41 ⟨0, 255, 0⟩, .getkc 41, .getkc 9] afterSetup =
    [.none, .optColor (some ⟨0, 255, 0⟩), .optColor (some ⟨0, 0, 0⟩)] := by decide +kernel

/-- V-LED-4. -/
theorem test_invalid_addresses :
    results [.sSetlc .left 32 ⟨1, 1, 1⟩, .sGetlc .left 32, .sUpdled .left 32 ⟨1, 1, 1⟩, .setkc 64 ⟨1, 1, 1⟩, .getkc 64,
        .getkc 255] afterSetup =
      [.none, .optColor none, .optByte none, .none, .optColor none, .optColor none] := by decide +kernel

/-- V-SYS-6. -/
theorem test_setksi : sees (fun t => (t.result, t.busLog))
    (exec (.setksi 9) (afterSetup.withPeriph ⟨Periph.reset, failing⟩)) =
      some (.statusPair 0 2, [.write 0x58 [2, 9] 0, .write 0x5B [2, 9] 2]) := by decide +kernel

/-- V-SYS-7. -/
theorem test_ledpf : sees State.result (exec .ledpf (afterSetup.withOvercurrent true)) = some (.bool true) ∧
    sees State.result (exec .ledpf afterSetup) = some (.bool false) := by decide +kernel

/-- V-SYS-8. -/
theorem test_reboot : refusal (execAll [.reboot, .scanm] afterSetup) = some .blockHalted ∧
    refusal (execAll [.reboot, .setup] afterSetup) = some .blockHalted := by decide +kernel

/-- V-SYS-3. -/
theorem test_before_setup : refusal (exec .scanm State.reset) = some .beforeSetup := by decide +kernel

/-- V-BUS-1 and V-BUS-4. -/
theorem test_s_rdkeys :
    results [.sRdkeys .left, .sRdkeys .right] (afterSetup.withPeriph ⟨{ Periph.reset with keys := 0x20 }, failing⟩) =
      [.optScan (some 0x20), .optScan none] := by decide +kernel

/-- V-BUS-2, V-BUS-5. -/
theorem test_s_rdkeys_tag :
    results [.sRdkeys .left, .sRdkeys .left]
      (afterSetup.withTurns [answer 0 [0, 0x20, 0, 0, 0], answer 0 [1, 0xFF, 0xFF, 0xFF, 0xFF]]) =
      [.optScan none, .optScan (some 0xFFFFFFFF)] := by decide +kernel

/-- V-LED-3: set and set back leaves the bank dirty. -/
theorem test_s_setlc : sees (fun t => (ledAt t.fb.left 0, t.dirty, t.busLog))
    (execAll [.sSetlc .left 0 ⟨9, 9, 9⟩, .sSetlc .left 0 ⟨0, 0, 0⟩] afterSetup) = some (⟨0, 0, 0⟩, ⟨1, 0⟩, []) := by
  decide +kernel

/-- V-LED-17, V-LED-18: the packed mode. -/
theorem test_s_getlc_packed :
    sees (fun t => (t.result, t.dirty)) (execAll [.sSetlc .left 0 ⟨0xFF, 0x80, 0x07⟩, .sGetlc .left 0]
      { afterSetup with cfg := packedConfig }) = some (.optColor (some ⟨255, 132, 0⟩), ⟨1, 0⟩) := by decide +kernel

/-- V-LED-5: banks 3, 0, 1, 2 are considered in this order from cursor 2; bank 2's last LED is white. -/
theorem test_s_updbank : sees (fun t => (t.busLog, t.dirty, t.cursor))
    (execAll ([.sSetlc .left 0 ⟨1, 2, 3⟩, .sSetlc .left 23 ⟨255, 255, 255⟩] ++ List.replicate 4 (.sUpdbank .left))
      (afterSetup.withCursor ⟨2, 0⟩)) =
      some ([.write 0x58 (0x80 :: List.replicate 24 0) 0,
        .write 0x58 (0x82 :: (List.replicate 21 0 ++ [255, 255, 255])) 0], ⟨0, 0⟩, ⟨2, 0⟩) := by decide +kernel

/-- V-EXC-2: a failed bank write is dropped. -/
theorem test_s_updbank_failed : sees (fun t => (t.busLog.length, t.dirty, t.result))
    (exec (.sUpdbank .right) (((afterSetup.withDirty ⟨0, 0b0100⟩).withCursor ⟨0, 1⟩).withPeriph
      ⟨Periph.reset, failing⟩)) = some (1, ⟨0, 0⟩, .none) := by decide +kernel

/-- V-LED-7, V-LED-8. -/
theorem test_s_updled : sees (fun t => (t.result, t.busLog, ledAt t.fb.right 31, t.dirty))
    (exec (.sUpdled .right 31 ⟨16, 32, 48⟩) (afterSetup.withDirty ⟨0, 0b1000⟩)) =
      some (.optByte (some 0), [.write 0x5B [4, 0x1F, 9, 4, 1] 0], ⟨16, 32, 48⟩, ⟨0, 0b1000⟩) := by decide +kernel

/-- V-LED-19: the packed mode. -/
theorem test_s_updled_packed : sees (fun t => (t.busLog, ledAt t.fb.left 5))
    (exec (.sUpdled .left 5 ⟨0x12, 0x34, 0x56⟩) { afterSetup with cfg := packedConfig }) =
      some ([.write 0x58 [4, 5, 0x1A, 9, 1] 0], ⟨16, 49, 82⟩) := by decide +kernel

/-- V-LED-10. -/
theorem test_s_updall : sees (fun t => (t.result, t.busLog, ledAt t.fb.right 31, t.dirty))
    (exec (.sUpdall .right ⟨0, 0, 255⟩) ((afterSetup.withDirty ⟨1, 15⟩).withPeriph ⟨Periph.reset, failing⟩)) =
      some (.status 2, [.write 0x5B [3, 255, 0, 0] 2], ⟨0, 0, 255⟩, ⟨1, 0⟩) := by decide +kernel

/-- V-BUS-6, V-BUS-9, V-BUS-11. -/
theorem test_s_registers : results [.sSetksi .right 50, .sRdksi .right, .sSetspi .right 4, .sRdspi .right] afterSetup =
    [.status 0, .optByte (some 50), .status 0, .optByte (some 4)] := by decide +kernel

/-- V-BUS-10. -/
theorem test_s_rdver : sees (fun t => (t.result, t.busLog))
    (exec (.sRdver .left) (afterSetup.withPeriph ⟨{ Periph.reset with version := 3 }, Periph.reset⟩)) =
      some (.optByte (some 3), [.write 0x58 [1] 0, .read 0x58 1 (.ok [3])]) := by decide +kernel

/-- V-BUS-12: no read follows a failed select. -/
theorem test_s_rdver_failed : sees (fun t => (t.result, t.busLog))
    (exec (.sRdver .right) (afterSetup.withPeriph ⟨Periph.reset, failing⟩)) =
      some (.optByte none, [.write 0x5B [1] 2]) := by decide +kernel

/-- V-BUS-13. -/
theorem test_s_rdksi_failed_read : sees State.result
    (exec (.sRdksi .left) (afterSetup.withTurns [answer 0 [], answer 2 []])) = some (.optByte none) := by
  decide +kernel

/-- V-BUS-14: the selection left behind spoils the next key read, and only that one. -/
theorem test_spoiled_read :
    results [.sRdkeys .left, .sRdkeys .left] (afterSetup.withPeriph
      ⟨{ Periph.reset with sel := .keyscanInterval, keyscanInterval := 1 }, Periph.reset⟩) =
      [.optScan (some 0xFFFFFFFF), .optScan (some 0)] := by decide +kernel

/-- R61: the last LED of the right hand. -/
theorem test_led_set_one : sees (fun t => (ledAt t.periph.right.leds 31, t.result))
    (exec (.ledSetOne 0x5B 31 ⟨9, 4, 1⟩) ready) = some (⟨9, 4, 1⟩, .status 0) := by decide +kernel

/-- R62. -/
theorem test_led_set_all : sees (fun t => (ledAt t.periph.left.leds 31, ledAt t.periph.right.leds 31))
    (exec (.ledSetAll 0x58 ⟨9, 4, 1⟩) ready) = some (⟨9, 4, 1⟩, ⟨0, 0, 0⟩) := by decide +kernel

/-- R63: slot 7 of bank 3 is LED 31. -/
theorem test_led_bank : sees (fun t => (ledAt t.periph.left.leds 31, ledAt t.periph.left.leds 23))
    (exec (.ledBank 0x58 3 (Vector.replicate 8 ⟨1, 2, 3⟩)) ready) = some (⟨1, 2, 3⟩, ⟨0, 0, 0⟩) := by
  decide +kernel

/-- R64, R65. -/
theorem test_register_frames : sees (fun t => (t.periph.left.keyscanInterval, t.periph.left.spiFreq, t.periph.left.sel))
    (execAll [.keyscanInterval 0x58 50, .ledSpiFrequency 0x58 4, .regselVersion 0x58, .regselKsi 0x58, .regselSpi 0x58]
      ready) = some (50, 4, .spiFreq) := by decide +kernel

/-- V-ENC-14: the reply's bank 0 is the low byte; and the one-byte reply. -/
theorem test_replies : results [.keydata 0x5B 1 0 0 0x80, .reg 0x58 3] ready =
    [.optScan (some 0x80000001), .optByte (some 3)] := by decide +kernel

/-- R43, R81, R128: a device that is neither of the two, and an index byte with a reserved bit, are never sent to. -/
theorem test_ill_formed_transactions :
    refusal (step (ready.withInbox [.packet (.busWrite 0x10 [0x01])])) = some .illFormedTransaction ∧
    refusal (step (ready.withInbox [.packet (.busRead 0x59 [0x03])])) = some .illFormedTransaction ∧
    refusal (exec (.ledSetOne 0x58 32 ⟨0, 0, 0⟩) ready) = some .illFormedTransaction := by decide +kernel

/-- R240: before SETUP a bare frame and a bare reply are refused. -/
theorem test_bare_before_setup :
    refusal (step (State.reset.withInbox [.packet (.busWrite 0x58 [0x02, 5])])) = some .beforeSetup ∧
    refusal (step (State.reset.withInbox [.packet (.busRead 0x58 [0x03])])) = some .beforeSetup := by decide +kernel

/-- R61, R67: what the reference responder makes of an index of 32 and of a device that is not there. -/
theorem test_responder_corners :
    Periph.reset.takeWrite Config.default 0x58 [4, 32, 1, 2, 3] = (0, Periph.reset) ∧
    (respondRead 0x10 5 State.reset).1 = .err 2 ∧
    handOfDev Config.default 0x10 = none := by decide +kernel

/-- R215: the second read hangs, the left hand's snapshot is stored. -/
theorem test_hang_second : sees (fun t => (t.hung, t.currScan, t.evPos, t.busLog.length))
    (exec .scanm (afterSetup.withTurns [answer 0 [1, 4, 0, 0, 0], silence])) = some (true, ⟨4, 0⟩, 64, 1) := by
  decide +kernel

/-- V-EXC-7: stuck after the snapshots were saved; then nothing is admitted. -/
theorem test_hang : sees (fun t => (t.hung, t.prevScan, t.evPos, t.busLog))
    (exec .scanm ((afterSetup.withCurrScan ⟨8, 0⟩).withTurns [silence])) = some (true, ⟨8, 0⟩, 64, []) ∧
    refusal (execAll [.scanm, .setup] (afterSetup.withTurns [silence])) = some .blockStuck := by decide +kernel

/-- V-SYS-9: after the watchdog NEXTEV is refused, from a stuck block too. -/
theorem test_watchdog : refusal (Sys2Proof.core.run 2 ((ready.withHung true).withInbox
    [.watchdog, .packet (.host [0x02])])) = some .beforeSetup := by decide +kernel

/-- R4, U15: under an ill-formed configuration an idle step, an input and the watchdog are refused. -/
theorem test_ill_formed_configuration : ∀ inbox ∈ [[], [Input.time 5], [.watchdog], [.packet (.host [0xFF])]],
    refusal (step (({ ready with cfg := { Config.default with busAddrBase := 0x59 } } : State).withInbox inbox)) =
      some .illFormedConfig := by decide +kernel

/-- Program P1, first five inputs. -/
theorem test_program_start : sees State.result (Sys2Proof.core.run 5 (State.reset.withInbox
    [.time 0, .packet (.host [0x00]), .keys .left 0x20, .packet (.host [0x01]), .packet (.host [0x02])])) =
      some (.optEvent (some ⟨5, false, true⟩)) := by decide +kernel

/-! ## Witnesses: the hypotheses of each obligation, met together

`answered` has an environment that answers two transactions by force, the first with a failure. -/

/-- A ready block whose next transactions are answered by force. -/
def answered : State :=
  afterSetup.withTurns [answer 2 [], answer 0 [1, 1, 2, 3, 4], answer 0 [], answer 0 [], silence]

theorem ready_is_ready : ready.Ready := by decide +kernel
theorem afterSetup_is_ready : afterSetup.Ready ∧ afterSetup.Unscripted := by decide +kernel

theorem witness_DecodeOfEncodeIsTheInstruction : configOk Config.default = true := test_cfg_default
theorem witness_StepRunsTheDecodedInstruction :
    (ready.withInbox [.packet (.host [0x07, 0x08])]).inbox = .packet (.host [0x07, 0x08]) :: [] ∧
    decode ready.cfg (.host [0x07, 0x08]) = .ok (.ledpf, some (.host [0x08])) := by decide +kernel
theorem witness_UndefinedInvocations_no_instruction :
    configOk ready.cfg = true ∧ (ready.withInbox [.packet (.host [])]).inbox = .packet (.host []) :: [] ∧
    ∀ i tail, ([] : List Byte) ≠ (encode Config.default i).bytes ++ tail ∨ ¬ isOperation i := by
  refine ⟨by decide +kernel, rfl, fun i tail => ?_⟩
  refine .inl fun h => ?_
  cases i <;> cases h
theorem witness_UndefinedInvocations_opsel :
    ∀ op ∈ ([0x09, 0x0F, 0x1B, 0xFF] : List Byte), ¬ (op.toNat ≤ 0x08 ∨ 0x10 ≤ op.toNat ∧ op.toNat ≤ 0x1A) := by
  decide
theorem witness_UndefinedInvocations_hand :
    ∀ op ∈ ([0x10, 0x1A] : List Byte), 0x10 ≤ op.toNat ∧ op.toNat ≤ 0x1A ∧ 2 ≤ (2 : Byte).toNat ∧
      2 ≤ (255 : Byte).toNat := by decide
theorem witness_ConfigurationIsCheckedByFiveConditions :
    configOk { Config.default with busAddrBase := 0x59 } = false := test_cfg_addresses_refused
theorem witness_DeviceAddressesDiffer : configOk Config.default = true := test_cfg_default
theorem witness_EveryLedSlotBelongsToOneKey : configOk Config.default = true := test_cfg_default
theorem witness_StepKeepsTheConfiguration :
    ∃ t, step (ready.withInbox [.packet (.host [0x01])]) = .next t := next_exists (by decide +kernel)
theorem witness_KeyReplyIsReadByItsTag :
    (0x01 : Byte) = Config.default.replyKeydata ∧ (0x00 : Byte) ≠ Config.default.replyKeydata := by decide
theorem witness_PackedColourReadsBack :
    packedConfig.colorMode = .rgb555 ∧ Config.default.colorMode = .rgb888 := by decide
theorem witness_BankFrameLayout :
    (0 : BitVec 5).toNat = 8 * (0 : BitVec 2).toNat + (0 : BitVec 3).toNat ∧
    (31 : BitVec 5).toNat = 8 * (3 : BitVec 2).toNat + (7 : BitVec 3).toNat := by decide
theorem witness_OperationsAreRefusedExactlyWhenNotAdmitted :
    isOperation .scanm ∧ configOk State.reset.cfg = true ∧ State.reset.hung = false :=
  ⟨⟨_, rfl⟩, by decide +kernel, rfl⟩
theorem witness_StuckOrHaltedBlockAdmitsNothing :
    configOk (ready.withHung true).cfg = true ∧ (ready.withHung true).hung = true ∧
    (ready.withHalted true).hung = false ∧ (ready.withHalted true).halted = true := by decide +kernel
theorem witness_StuckOrHaltedBlockMakesNoStep :
    (ready.withHung true).inbox = [] ∧ (ready.withHung true).hung = true ∧ (ready.withHalted true).halted = true ∧
    ready.hung = false ∧ ready.halted = false ∧ configOk ready.cfg = true := by decide +kernel
theorem witness_WatchdogRestartsTheBlock :
    (ready.withInbox [.watchdog]).inbox = .watchdog :: [] ∧ isOperation .nextev ∧ Instr.nextev ≠ .setup ∧
    configOk ready.cfg = true := ⟨rfl, ⟨_, rfl⟩, by decide, by decide +kernel⟩
theorem witness_StepKeepsTheStateInvariant :
    ready.initialized = true ∧ ready.hung = false ∧ (ready.withInbox [.packet (.host [0x01])]).Inv ∧
    ∃ t, step (ready.withInbox [.packet (.host [0x01])]) = .next t :=
  ⟨rfl, rfl, fun _ _ => ⟨by decide, by decide +kernel, fun _ _ => rfl⟩, next_exists (by decide +kernel)⟩
theorem witness_OnlyFramesOfTheCommandMapAreIssued :
    ready.LogFramed ∧ (∃ t, exec (.sUpdall .right ⟨1, 2, 3⟩) ready = .next t) ∧
    (∃ t, exec (.ledSetOne 0x5B 31 ⟨1, 2, 3⟩) ready = .next t) ∧
    (ready.withInbox [.packet (.busWrite 0x58 [2, 5])]).LogFramed ∧
    ∃ t, step (ready.withInbox [.packet (.busWrite 0x58 [2, 5])]) = .next t :=
  ⟨by simp [State.LogFramed, ready, State.reset], next_exists (by decide +kernel), next_exists (by decide +kernel),
    by simp [State.LogFramed, ready, State.reset], next_exists (by decide +kernel)⟩
theorem witness_HistoryOnlyGrows :
    ∃ t, step (ready.withInbox [.packet (.host [0x01])]) = .next t := next_exists (by decide +kernel)
theorem witness_RegistersAreWrittenOnlyByTheirWriters :
    (∃ t, exec .setup State.reset = .next t) ∧ (∃ t, exec .scanm ready = .next t) ∧ (∃ t, exec .nextev ready = .next t) ∧
    (∃ t, exec .updleds ready = .next t) ∧ (∃ t, exec .reboot ready = .next t) ∧
    ∃ t, exec (.sUpdbank .left) ready = .next t :=
  ⟨next_exists (by decide +kernel), next_exists (by decide +kernel), next_exists (by decide +kernel),
    next_exists (by decide +kernel), next_exists (by decide +kernel), next_exists (by decide +kernel)⟩
theorem witness_RegistersAreWritten_inputs :
    configOk ready.cfg = true ∧ (ready.withInbox [.time 5]).inbox = .time 5 :: [] ∧ (ready.withInbox [.overcurrent true]).inbox = .overcurrent true :: [] ∧
    (ready.withInbox [.keys .right 1]).inbox = .keys .right 1 :: [] ∧
    (ready.withInbox [.fail .left true]).inbox = .fail .left true :: [] ∧
    (ready.withInbox [.turn silence]).inbox = .turn silence :: [] := by decide +kernel
theorem witness_SetupEstablishesTheResetTable :
    State.reset.Live ∧ answered.Live ∧ answered.Answered 2 ∧ answered.forcedStatus 0 = some 2 ∧
    answered.forcedStatus 1 = some 0 := by decide +kernel
theorem witness_ready_and_answered : answered.Ready ∧ answered.Answered 4 := by decide +kernel
theorem witness_KeyboardIntervalIsForwardedToBothHands : answered.Ready ∧ answered.Answered 2 := by decide +kernel
theorem witness_PowerFaultQueryReturnsTheInput : (afterSetup.withOvercurrent true).Ready := by decide +kernel
theorem witness_RebootHaltsTheBlock : afterSetup.Ready := afterSetup_is_ready.1
theorem witness_ScanMatrixTakesBothSnapshots : answered.Ready ∧ answered.Answered 2 := by decide +kernel
theorem witness_FailedReadsYieldNoEvents :
    (afterSetup.withPeriph ⟨failing, Periph.reset⟩).Ready ∧ (afterSetup.withPeriph ⟨failing, Periph.reset⟩).Unscripted ∧
    ((afterSetup.withPeriph ⟨failing, Periph.reset⟩).periph.get .left).fail = true ∧ keyHand 31 = .left ∧
    (afterSetup.withPeriph ⟨failing, failing⟩).Ready ∧ keyHand 32 = .right := by decide +kernel
theorem witness_FailedReadsYieldNoEvents_both :
    ∀ h, ((afterSetup.withPeriph ⟨failing, failing⟩).periph.get h).fail = true := fun h => by cases h <;> rfl
theorem witness_HealthyScanDeliversTheKeys :
    afterSetup.Ready ∧ afterSetup.Unscripted ∧
    ∀ h, (afterSetup.periph.get h).fail = false ∧ (afterSetup.periph.get h).sel = .none :=
  ⟨afterSetup_is_ready.1, rfl, fun h => by cases h <;> decide⟩
/-- A block whose flush is due and whose selected banks are dirty as `dirty` says. -/
def due (dirty : Pair (BitVec 4)) (turns : List Turn) : State :=
  ((afterSetup.withMsNow 32).withDirty dirty).withTurns turns

theorem witness_HungTransactions_setup :
    (State.reset.withTurns [silence]).Live ∧ (State.reset.withTurns [silence]).initialized = false ∧
    (State.reset.withTurns [silence]).turns = ⟨none, none, .hang⟩ :: [] := by decide +kernel
theorem witness_HungTransactions_first :
    ∀ d ∈ [(⟨0b0010, 0⟩ : Pair (BitVec 4)), ⟨0, 0b0010⟩], ∀ s ∈ [due d [silence]],
      s.Ready ∧ s.turns = ⟨none, none, .hang⟩ :: [] ∧ s.lastFlush < 2 ^ s.cfg.timerBits ∧
      s.cfg.ledFlushIntervalMs ≤ (s.msNow % 2 ^ s.cfg.timerBits + 2 ^ s.cfg.timerBits - s.lastFlush) %
        2 ^ s.cfg.timerBits ∧
      isDirty s.dirty.left (s.cursor.left + 1) = !isDirty s.dirty.right (s.cursor.right + 1) := by decide +kernel
theorem witness_HungTransactions_second :
    ∀ s ∈ [due ⟨0b0010, 0b0010⟩ [answer 0 [], silence]],
      s.Ready ∧ s.turns = ⟨none, none, .forced 0 []⟩ :: ⟨none, none, .hang⟩ :: [] ∧
      s.lastFlush < 2 ^ s.cfg.timerBits ∧
      s.cfg.ledFlushIntervalMs ≤ (s.msNow % 2 ^ s.cfg.timerBits + 2 ^ s.cfg.timerBits - s.lastFlush) %
        2 ^ s.cfg.timerBits ∧
      isDirty s.dirty.left (s.cursor.left + 1) = true ∧ isDirty s.dirty.right (s.cursor.right + 1) = true := by
  decide +kernel
theorem witness_NextEventFindsTheFirstChangedKey :
    ready.Ready ∧ ready.evPos.toNat = 0 ∧ afterSetup.Ready ∧ afterSetup.evPos.toNat = 64 := by decide +kernel
theorem witness_DrainReturnsTheEventsOfTheCycle :
    (ready.withCurrScan ⟨0x80000001, 0x80000000⟩).Ready ∧ ready.evPos = 0 ∧
    (scanEvents ⟨0x80000001, 0x80000000⟩ ready.prevScan).map KeyEvent.address = [0, 31, 63] := by decide +kernel
theorem witness_ReadKeysReturnsTheReply : answered.Ready ∧ answered.Answered 1 := by decide +kernel
theorem witness_ReadKeysUnderEveryAnswer :
    (afterSetup.withTurns [answer 1 []]).Ready ∧ (answer 1 []) = ⟨none, none, .forced 1 []⟩ ∧
    (afterSetup.withTurns [answer 0 [1, 2, 3, 4]]).Ready ∧ [1, 2, 3, 4].length < 5 ∧
    (afterSetup.withTurns [answer 0 [1, 1, 2, 3, 4]]).Ready ∧ (1 : Byte) = afterSetup.cfg.replyKeydata ∧
    (0 : Byte) ≠ afterSetup.cfg.replyKeydata := by decide +kernel
theorem witness_ConfigurationWritesReturnTheRawStatus :
    answered.Ready ∧ answered.Answered 1 ∧ answered.forcedStatus 0 = some 2 := by decide +kernel
theorem witness_RegisterReadsSelectThenRead : answered.Ready ∧ answered.Answered 2 ∧
    (Instr.sRdver .left = .sRdver .left ∧ (0x01 : Byte) = answered.cfg.cmdVersion) ∧
    (0x02 : Byte) = answered.cfg.cmdKeyscanInterval ∧ (0x06 : Byte) = answered.cfg.cmdLedSpiFrequency := by
  decide +kernel
theorem witness_WrittenRegistersAreReadBack :
    afterSetup.Ready ∧ afterSetup.Unscripted ∧ (afterSetup.periph.get .right).fail = false := by decide +kernel

/-- A block whose left peripheral has this register selected, each register holding v. -/
def selected (sel : Sel) (v : Byte) : State :=
  afterSetup.withPeriph ⟨{ Periph.reset with sel := sel, keyscanInterval := v, spiFreq := v, version := v }, Periph.reset⟩

theorem witness_SelectedRegisterSpoilsTheNextKeyRead :
    ∀ sel ∈ [Sel.version, .keyscanInterval, .spiFreq], ∀ v ∈ ([1, 2] : List Byte),
      (selected sel v).Ready ∧ (selected sel v).Unscripted ∧ ((selected sel v).periph.get .left).fail = false ∧
      ((selected sel v).periph.get .left).sel = sel ∧ (decide (v = (selected sel v).cfg.replyKeydata) = (v == 1)) := by
  decide +kernel
theorem witness_SetLedColorStoresAndMarks : afterSetup.Ready := afterSetup_is_ready.1
theorem witness_GetLedColorReturnsTheEntry : afterSetup.Ready := afterSetup_is_ready.1
theorem witness_KeyColoursDelegateToTheLed : afterSetup.Ready ∧ (63 : BitVec 6) = ledOfKey afterSetup.cfg 63 := by
  decide +kernel
theorem witness_InvalidAddressesAreRejected : afterSetup.Ready ∧ 32 ≤ (32 : Byte).toNat ∧ 64 ≤ (64 : Byte).toNat ∧
    64 ≤ (255 : Byte).toNat := by decide +kernel
theorem witness_FrameBufferIsReadYourWrites : afterSetup.Ready ∧ afterSetup.Unscripted ∧
    (∀ j ∈ [Instr.updleds, .sUpdbank .left], isFlush j = true) ∧ afterSetup.cfg.colorMode = .rgb888 := by
  decide +kernel
theorem witness_healthy_and_dirty :
    (afterSetup.withDirty ⟨0b1010, 0⟩).Ready ∧ (afterSetup.withDirty ⟨0b1010, 0⟩).Answered 4 ∧
    (afterSetup.withDirty ⟨0b1010, 0⟩).Unscripted ∧ ((afterSetup.withDirty ⟨0b1010, 0⟩).periph.get .left).fail = false ∧
    isDirty ((afterSetup.withDirty ⟨0b1010, 0⟩).dirty.get .left) (afterSetup.cursor.get .left + 1) = true := by
  decide +kernel
theorem witness_UpdateNextBankSendsTheSelectedDirtyBank :
    (answered.withDirty ⟨0b0010, 0⟩).Ready ∧ (answered.withDirty ⟨0b0010, 0⟩).Answered 1 ∧
    (1 : BitVec 2) = answered.cursor.get .left + 1 ∧ isDirty 0b0010 1 = true ∧
    (0 : BitVec 2) = (answered.withCursor ⟨3, 3⟩).cursor.get .left + 1 ∧ isDirty 0b0010 0 = false := by decide +kernel
theorem witness_FourFlushStepsFlushTheHand :
    (answered.withDirty ⟨0b1111, 0⟩).Ready ∧ (answered.withDirty ⟨0b1111, 0⟩).Answered 4 ∧
    isDirty 0b1111 3 = true := by decide +kernel
theorem witness_UpdateLedsIsGatedBeforeTheInterval :
    ((afterSetup.withLastFlush 65530).withMsNow 25).Ready ∧
    (25 % 2 ^ 16 + 2 ^ 16 - 65530) % 2 ^ 16 < Config.default.ledFlushIntervalMs ∧
    65530 < 2 ^ Config.default.timerBits := by decide +kernel
theorem witness_UpdateLedsFiresAfterTheInterval :
    ((answered.withLastFlush 65530).withMsNow 26).Ready ∧ ((answered.withLastFlush 65530).withMsNow 26).Answered 2 ∧
    65530 < 2 ^ Config.default.timerBits ∧
    Config.default.ledFlushIntervalMs ≤ (26 % 2 ^ 16 + 2 ^ 16 - 65530) % 2 ^ 16 := by decide +kernel
theorem witness_FlushRateIsBounded :
    (afterSetup.withMsNow 65530).Ready ∧ 31 < Config.default.ledFlushIntervalMs ∧
    ∃ t, exec .updleds (afterSetup.withMsNow 65530) = .next t ∧ t.hung = false ∧
      t.lastFlush = (afterSetup.withMsNow 65530).msNow % 2 ^ (afterSetup.withMsNow 65530).cfg.timerBits := by
  refine ⟨by decide +kernel, by decide, ?_⟩
  have h : sees (fun t => (t.hung, t.lastFlush)) (exec .updleds (afterSetup.withMsNow 65530)) = some (false, 65530) := by
    decide +kernel
  obtain ⟨t, ht⟩ := next_exists (o := exec .updleds (afterSetup.withMsNow 65530)) (by decide +kernel)
  rw [ht] at h
  simp only [sees, Option.some.injEq, Prod.mk.injEq] at h
  exact ⟨t, ht, h.1, by rw [h.2]; rfl⟩
theorem witness_UpdateLedSendsAndStores : answered.Ready ∧ answered.Answered 1 ∧
    (⟨1, 2, 3⟩ : Color) = quantise answered.cfg ⟨1, 2, 3⟩ := by decide +kernel
theorem witness_UpdateAllSendsAndResetsTheHand : answered.Ready ∧ answered.Answered 1 ∧
    (⟨1, 2, 3⟩ : Color) = quantise answered.cfg ⟨1, 2, 3⟩ := by decide +kernel
theorem witness_WriteFramesAreOneTransaction : State.reset.Live ∧ State.reset.initialized = false ∧ answered.Ready ∧ answered.Answered 1 ∧
    answered.forcedStatus 0 = some 2 ∧ (0x58 = devAddr answered.cfg .left ∧ 0x5B = devAddr answered.cfg .right) ∧
    (31 : Byte).toNat < 32 ∧ 32 ≤ (32 : Byte).toNat ∧ 0x59 ≠ devAddr answered.cfg .left ∧
    0x59 ≠ devAddr answered.cfg .right := by decide +kernel
theorem witness_RepliesDeliverTheirContents :
    State.reset.Live ∧ State.reset.initialized = false ∧ ready.Ready ∧ 0x5B = devAddr State.reset.cfg .right ∧
    0x59 ≠ devAddr State.reset.cfg .left ∧ 0x59 ≠ devAddr State.reset.cfg .right := by decide +kernel
theorem witness_LedFramesSetThePeripheralsLeds : ready.Ready ∧ ready.Unscripted ∧
    Periph.reset = ready.periph.get .right ∧ Periph.reset.fail = false := by decide +kernel
theorem witness_RegisterFramesWriteThePeripheral : ready.Ready ∧ ready.Unscripted ∧
    Periph.reset = ready.periph.get .left ∧ Periph.reset.fail = false := by decide +kernel

/-- A block whose right peripheral fails and whose next bank of that hand, bank 2, is dirty. -/
def failingFlush : State :=
  ((afterSetup.withDirty ⟨0, 0b0100⟩).withCursor ⟨0, 1⟩).withPeriph ⟨Periph.reset, failing⟩

theorem witness_FailedBankWriteIsNotRepaired :
    failingFlush.Ready ∧ failingFlush.Unscripted ∧ (failingFlush.periph.get .right).fail = true ∧
    (2 : BitVec 2) = failingFlush.cursor.get .right + 1 ∧ isDirty (failingFlush.dirty.get .right) 2 = true ∧
    quantise failingFlush.cfg (ledAt (failingFlush.fb.get .right) 16) = ledAt (failingFlush.fb.get .right) 16 := by
  decide +kernel

end Sys2Proof.Tests
end

section
/-! # Well-formed configurations

The five conditions of 00_scope.md R4: each of the model's Boolean checks, read as the condition in plain terms. -/

namespace Sys2Proof

/-! ## R4 (a): the command bytes -/

theorem bankCommand_zero (cfg : Config) : bankCommand cfg 0 = cfg.cmdLedBankBase := BitVec.add_zero _
theorem bankCommand_one (cfg : Config) : bankCommand cfg 1 = cfg.cmdLedBankBase + 1 := rfl
theorem bankCommand_two (cfg : Config) : bankCommand cfg 2 = cfg.cmdLedBankBase + 2 := rfl
theorem bankCommand_three (cfg : Config) : bankCommand cfg 3 = cfg.cmdLedBankBase + 3 := rfl

theorem commandsOk_iff (cfg : Config) : commandsOk cfg = true ↔
    [cfg.cmdVersion, cfg.cmdKeyscanInterval, cfg.cmdLedSetAll, cfg.cmdLedSetOne, cfg.cmdLedSpiFrequency,
        cfg.cmdLedBankBase, cfg.cmdLedBankBase + 1, cfg.cmdLedBankBase + 2, cfg.cmdLedBankBase + 3].Nodup ∧
      cfg.cmdLedBankBase.toNat + 3 ≤ 255 := by
  rw [commandsOk, Bool.and_eq_true, decide_eq_true_iff, decide_eq_true_iff, bankCommand_zero, bankCommand_one,
    bankCommand_two, bankCommand_three]

/-! ## R4 (b): the device addresses -/

theorem addressesOk_iff (cfg : Config) :
    addressesOk cfg = true ↔ cfg.busAddrBase &&& cfg.rightSel = 0 ∧ cfg.rightSel ≠ 0 := by
  rw [addressesOk, Bool.and_eq_true, beq_iff_eq, bne_iff_ne]

/-! ## R4 (c) and (d): the two tables

The model checks the list of a table's entries, the rule speaks of the lookup: the list is the lookup at every address, in
ascending order. -/

theorem vector_toList_eq_ofFn {α : Type} {n : Nat} (v : Vector α n) :
    v.toList = List.ofFn fun i : Fin n => v[i.val] := by
  rw [← Vector.toList_ofFn, Vector.ofFn_getElem]

theorem keyLedMap_toList (cfg : Config) :
    cfg.keyLedMap.toList = List.ofFn (n := 2 ^ 6) (Machine.ledOfKey cfg ∘ BitVec.ofFin) :=
  vector_toList_eq_ofFn cfg.keyLedMap

theorem gamma_toList (cfg : Config) :
    cfg.gamma.toList = List.ofFn (n := 2 ^ 8) (Machine.gammaOf cfg ∘ BitVec.ofFin) :=
  vector_toList_eq_ofFn cfg.gamma

/-- Entries without repetition are an injective lookup, and an injection of a finite type into itself is a bijection. -/
theorem mapOk_iff (cfg : Config) : mapOk cfg = true ↔ Function.Bijective (Machine.ledOfKey cfg) := by
  rw [mapOk, decide_eq_true_iff, List.nodup_map_iff BitVec.toNat_injective, keyLedMap_toList, List.nodup_ofFn,
    ← Finite.injective_iff_bijective]
  exact Function.Injective.of_comp_iff' _ BitVec.equivFin.symm.bijective

theorem nonDecreasing_iff_sortedLE (l : List Byte) :
    nonDecreasing l = true ↔ (l.map BitVec.toNat).SortedLE := by
  rw [List.sortedLE_iff_isChain, List.isChain_map]
  induction l using nonDecreasing.induct with
  | case1 a b rest ih =>
    rw [nonDecreasing, Bool.and_eq_true, decide_eq_true_iff, ih, List.isChain_cons_cons]
  | case2 l short =>
    match l, short with
    | [], _ => simp [nonDecreasing]
    | [a], _ => simp [nonDecreasing]
    | a :: b :: rest, short => exact absurd rfl (short a b rest)

theorem gammaOk_iff (cfg : Config) : gammaOk cfg = true ↔
    ∀ a b : Byte, a.toNat ≤ b.toNat → (Machine.gammaOf cfg a).toNat ≤ (Machine.gammaOf cfg b).toNat := by
  rw [gammaOk, nonDecreasing_iff_sortedLE, gamma_toList, List.map_ofFn, List.sortedLE_ofFn_iff]
  exact ⟨fun h a b hab => @h a.toFin b.toFin hab, fun h i j hij => h (.ofFin i) (.ofFin j) hij⟩

/-! ## R4 (e), and the five together -/

theorem intervalOk_iff (cfg : Config) : intervalOk cfg = true ↔ cfg.ledFlushIntervalMs < 2 ^ cfg.timerBits :=
  decide_eq_true_iff

theorem configOk_iff (cfg : Config) : configOk cfg = true ↔
    commandsOk cfg = true ∧ addressesOk cfg = true ∧ mapOk cfg = true ∧ gammaOk cfg = true ∧ intervalOk cfg = true := by
  simp only [configOk, Bool.and_eq_true, and_assoc]

/-! ## The default configuration -/

theorem configOk_default : configOk Config.default = true := by decide +kernel

theorem ledOfKey_default (k : BitVec 6) : Machine.ledOfKey Config.default k = k := by
  simp [Machine.ledOfKey, Config.default, Config.identityMap]

end Sys2Proof
end

section
/-! # One step

What a step is, one equation per kind of oldest input, and one inversion lemma: everything a step that answers a next
state can have done. -/

namespace Sys2Proof.Machine

/-! ## A step by its oldest input -/

theorem step_of_empty {s : State} (h : s.inbox = []) :
    step s = whenConfigured s
      (if s.hung then .fault .stuckInTransaction else if s.halted then .fault .spinningForReboot else .next s) := by
  rw [step, h]

theorem step_of_decoded {s : State} {p : Packet} {rest : List Input} {i : Instr} {left : Option Packet}
    (h : s.inbox = .packet p :: rest) (hd : decode s.cfg p = .ok (i, left)) :
    step s = exec i (s.withInbox (restOfInbox left rest)) := by
  rw [step, h]
  simp only [hd]

theorem step_of_undecodable {s : State} {p : Packet} {rest : List Input} {e : DecodeError}
    (h : s.inbox = .packet p :: rest) (hd : decode s.cfg p = .error e) :
    step s = whenConfigured s (.refused (.undecodable e)) := by
  rw [step, h]
  simp only [hd]

theorem step_of_input {s : State} {i : Input} {rest : List Input} (h : s.inbox = i :: rest)
    (hi : ∀ p, i ≠ .packet p) : step s = whenConfigured s (.next (takeInput (s.withInbox rest) i)) := by
  rw [step, h]
  cases i with
  | packet p => exact absurd rfl (hi p)
  | _ => rfl

/-- Everything a step that answers a next state can have done: nothing, on a block with no input that is neither stuck nor
halted (70_reset_and_hazards.md R240); one decoded instruction; or one input that is no packet. -/
theorem step_cases {s t : State} (h : step s = .next t) :
    (s.inbox = [] ∧ s.Live ∧ t = s) ∨
    (∃ p rest i left, s.inbox = .packet p :: rest ∧ decode s.cfg p = .ok (i, left) ∧
      exec i (s.withInbox (restOfInbox left rest)) = .next t) ∨
    ∃ i rest, s.inbox = i :: rest ∧ (∀ p, i ≠ .packet p) ∧ configOk s.cfg = true ∧
      t = takeInput (s.withInbox rest) i := by
  match hin : s.inbox with
  | [] =>
    rw [step_of_empty hin] at h
    obtain ⟨hc, h⟩ := whenConfigured_next h
    split at h
    · cases h
    · split at h
      · cases h
      · rename_i hhung hhalted
        cases h
        exact .inl ⟨rfl, ⟨hc, by simpa using hhung, by simpa using hhalted⟩, rfl⟩
  | i :: rest =>
    by_cases hp : ∃ p, i = .packet p
    · obtain ⟨p, rfl⟩ := hp
      cases hd : decode s.cfg p with
      | ok d => exact .inr (.inl ⟨p, rest, d.1, d.2, rfl, hd, step_of_decoded hin hd ▸ h⟩)
      | error e =>
        rw [step_of_undecodable hin hd] at h
        cases (whenConfigured_next h).2
    · have hi : ∀ p, i ≠ .packet p := fun p hip => hp ⟨p, hip⟩
      rw [step_of_input hin hi] at h
      obtain ⟨hc, h⟩ := whenConfigured_next h
      cases h
      exact .inr (.inr ⟨i, rest, rfl, hi, hc, rfl⟩)

/-! ## The configuration is looked at first (00_scope.md R4, 93 U15) -/

/-- Each instruction's meaning begins with the check of the configuration. -/
theorem exec_eq_whenConfigured (i : Instr) (s : State) : ∃ run, exec i s = whenConfigured s run := by
  cases i <;> exact ⟨_, rfl⟩

/-- Each step comes down to the check of the configuration, a decoded packet's through the instruction's meaning. -/
theorem step_eq_whenConfigured (s : State) : ∃ run, step s = whenConfigured s run := by
  unfold step
  split
  · exact ⟨_, rfl⟩
  · split
    · exact exec_eq_whenConfigured _ (s.withInbox _)
    · exact ⟨_, rfl⟩
  · exact ⟨_, rfl⟩

theorem exec_of_illFormedConfig (i : Instr) {s : State} (h : configOk s.cfg = false) :
    exec i s = .refused .illFormedConfig := by
  obtain ⟨run, hrun⟩ := exec_eq_whenConfigured i s
  rw [hrun, whenConfigured_of_bad h]

theorem step_of_illFormedConfig {s : State} (h : configOk s.cfg = false) : step s = .refused .illFormedConfig := by
  obtain ⟨run, hrun⟩ := step_eq_whenConfigured s
  rw [hrun, whenConfigured_of_bad h]

end Sys2Proof.Machine
end

section
/-! # What a run keeps

A run keeps a view `f` of the state (a register, the configuration) if `f` reads the same in the state the run ends in,
returned or hung. Keeping composes along `BusRun.andThen`, through `finish` and through admission, so that what an
instruction keeps is read off its meaning part by part. -/

namespace Sys2Proof.Machine

/-- The run of a part of an operation from `s` ends, returned or hung, in a state with the same `f`. -/
def BusRun.Keeps {α β : Type} (f : State → β) (s : State) : BusRun α → Prop
  | .returned _ t => f t = f s
  | .hung t => f t = f s

/-- The outcome of an operation from `s`, if it is a next state, has the same `f`. -/
def NextKeeps {β : Type} (f : State → β) (s : State) (o : Host.Outcome State Fault Refusal) : Prop :=
  ∀ t, o = .next t → f t = f s

section
variable {α β γ : Type} {f : State → γ} {s : State}

/-! ## Runs -/

/-- A run from a state with the same `f` may be read as a run from `s`. -/
theorem BusRun.Keeps.of_eq {t : State} {m : BusRun α} (hm : m.Keeps f t) (ht : f t = f s) : m.Keeps f s := by
  cases m with
  | returned a u => exact Eq.trans hm ht
  | hung u => exact Eq.trans hm ht

theorem BusRun.Keeps.andThen {m : BusRun α} {k : α → State → BusRun β} (hm : m.Keeps f s)
    (hk : ∀ a t, (k a t).Keeps f t) : (m.andThen k).Keeps f s := by
  cases m with
  | returned a t => exact (hk a t).of_eq hm
  | hung t => exact hm

/-- A bus write keeps whatever the block alone determines. -/
theorem busWrite_keeps (hf : ∀ {s t : State}, SameBlock s t → f t = f s) (dev : BitVec 7) (bytes : List Byte)
    (s : State) : (busWrite dev bytes s).Keeps f s := by
  obtain ⟨st, t, hrun, ht⟩ | ⟨t, hrun, ht, -⟩ := busWrite_cases dev bytes s
  · rw [hrun]; exact hf ht.block
  · rw [hrun]; exact hf ht.block

/-- A bus read keeps whatever the block alone determines. -/
theorem busRead_keeps (hf : ∀ {s t : State}, SameBlock s t → f t = f s) (dev : BitVec 7) (n : Nat)
    (s : State) : (busRead dev n s).Keeps f s := by
  obtain ⟨r, t, hrun, ht⟩ | ⟨t, hrun, ht, -⟩ := busRead_cases dev n s
  · rw [hrun]; exact hf ht.block
  · rw [hrun]; exact hf ht.block

/-! ## Outcomes -/

theorem nextKeeps_next {t : State} (h : f t = f s) : NextKeeps f s (.next t) := by
  rintro _ ⟨⟩
  exact h

/-- The end of an operation keeps what neither the result nor the stuck bit is part of. -/
theorem BusRun.Keeps.finish {m : BusRun Result} (hm : m.Keeps f s) (hresult : ∀ t r, f (t.withResult r) = f t)
    (hstuck : ∀ t : State, f t.stuck = f t) : NextKeeps f s (finish m) := by
  cases m with
  | returned r t => exact nextKeeps_next ((hresult t r).trans hm)
  | hung t => exact nextKeeps_next ((hstuck t).trans hm)

variable {run : Host.Outcome State Fault Refusal}

theorem NextKeeps.whenLive (h : NextKeeps f s run) : NextKeeps f s (whenLive s run) :=
  fun t ht => h t (whenLive_next ht).2

theorem NextKeeps.whenAdmitted (h : NextKeeps f s run) : NextKeeps f s (whenAdmitted s run) :=
  fun t ht => h t (whenAdmitted_next ht).2

theorem NextKeeps.whenIssued {i : Instr} (h : NextKeeps f s run) : NextKeeps f s (whenIssued i s run) :=
  fun t ht => h t (whenIssued_next ht).2.2

end

end Sys2Proof.Machine
end

section
/-! # The configuration is constant

The configuration is constant for a run (00_scope.md R3): every part of every operation keeps it. -/

namespace Sys2Proof.Machine

/-! ## The parts of the operations -/

theorem busWrite_keeps_cfg (dev : BitVec 7) (bytes : List Byte) (s : State) :
    (busWrite dev bytes s).Keeps State.cfg s := busWrite_keeps SameBlock.cfg dev bytes s

theorem busRead_keeps_cfg (dev : BitVec 7) (n : Nat) (s : State) : (busRead dev n s).Keeps State.cfg s :=
  busRead_keeps SameBlock.cfg dev n s

theorem readKeys_keeps_cfg (h : Hand) (s : State) : (readKeys h s).Keeps State.cfg s :=
  (busRead_keeps_cfg _ _ s).andThen fun _ _ => rfl

theorem readRegister_keeps_cfg (h : Hand) (sel : Byte) (s : State) : (readRegister h sel s).Keeps State.cfg s := by
  refine (busWrite_keeps_cfg _ _ s).andThen fun status t => ?_
  split
  · exact (busRead_keeps_cfg _ _ t).andThen fun _ _ => rfl
  · rfl

@[simp] theorem storeScan_cfg (h : Hand) (d : Option Scan) (s : State) : (storeScan h d s).cfg = s.cfg := by
  cases d <;> rfl

theorem scanMatrix_keeps_cfg (s : State) : (scanMatrix s).Keeps State.cfg s := by
  refine ((readKeys_keeps_cfg .left (s.withPrevScan s.currScan)).of_eq rfl).andThen fun d0 s1 => ?_
  refine ((readKeys_keeps_cfg .right (storeScan .left d0 s1)).of_eq (storeScan_cfg _ _ _)).andThen fun d1 s2 => ?_
  exact storeScan_cfg .right d1 s2

@[simp] theorem setLedColor_cfg (h : Hand) (i : BitVec 5) (c : Color) (s : State) :
    (setLedColor h i c s).cfg = s.cfg := by
  unfold setLedColor
  split <;> rfl

theorem updateNextLedBank_keeps_cfg (h : Hand) (s : State) : (updateNextLedBank h s).Keeps State.cfg s := by
  unfold updateNextLedBank flushSelected
  split
  · exact ((busWrite_keeps_cfg _ _ (advanceCursor h s)).of_eq rfl).andThen fun _ _ => rfl
  · rfl

theorem updateLeds_keeps_cfg (s : State) : (updateLeds s).Keeps State.cfg s := by
  unfold updateLeds
  split
  · exact ((updateNextLedBank_keeps_cfg .left _).of_eq rfl).andThen fun _ t => updateNextLedBank_keeps_cfg .right t
  · rfl

theorem updateLed_keeps_cfg (h : Hand) (i : BitVec 5) (c : Color) (s : State) :
    (updateLed h i c s).Keeps State.cfg s :=
  (busWrite_keeps_cfg _ _ s).andThen fun _ _ => rfl

theorem updateAllLeds_keeps_cfg (h : Hand) (c : Color) (s : State) : (updateAllLeds h c s).Keeps State.cfg s :=
  (busWrite_keeps_cfg _ _ s).andThen fun _ _ => rfl

theorem setupBlock_keeps_cfg (s : State) : (setupBlock s).Keeps State.cfg s :=
  ((updateAllLeds_keeps_cfg .left _ (setupRegisters s)).of_eq rfl).andThen fun _ t =>
    (updateAllLeds_keeps_cfg .right _ t).andThen fun _ _ => rfl

/-! ## The operations -/

theorem finish_keeps_cfg {m : BusRun Result} {s : State} (hm : m.Keeps State.cfg s) :
    NextKeeps State.cfg s (finish m) :=
  hm.finish (fun _ _ => rfl) fun _ => rfl

/-- Showing a run's value on the host port keeps the configuration, if the run does. -/
theorem finish_shown_keeps_cfg {α : Type} {m : BusRun α} {s : State} (shown : α → Result) (hm : m.Keeps State.cfg s) :
    NextKeeps State.cfg s (finish (m.andThen fun a t => .returned (shown a) t)) :=
  finish_keeps_cfg (hm.andThen fun _ _ => rfl)

theorem frameTransaction_keeps_cfg (dev : BitVec 7) (bytes : List Byte) (s : State) :
    NextKeeps State.cfg s (frameTransaction dev bytes s) :=
  finish_shown_keeps_cfg _ (busWrite_keeps_cfg dev bytes s)

theorem replyTransaction_keeps_cfg (dev : BitVec 7) (bytes : List Byte) (shown : ReadResult → Result) (s : State) :
    NextKeeps State.cfg s (replyTransaction dev bytes shown s) :=
  finish_shown_keeps_cfg shown ((busRead_keeps_cfg dev _ _).of_eq rfl)

theorem execSetksi_keeps_cfg (v : Byte) (s : State) : NextKeeps State.cfg s (execSetksi v s) := by
  refine NextKeeps.whenAdmitted (finish_keeps_cfg ?_)
  exact (busWrite_keeps_cfg _ _ s).andThen fun _ t => (busWrite_keeps_cfg _ _ t).andThen fun _ _ => rfl

theorem execSetkc_keeps_cfg (k : Byte) (c : Color) (s : State) : NextKeeps State.cfg s (execSetkc k c s) := by
  refine NextKeeps.whenAdmitted ?_
  split
  · exact nextKeeps_next (setLedColor_cfg _ _ c s)
  · exact nextKeeps_next rfl

theorem execSSetlc_keeps_cfg (h : Hand) (i : Byte) (c : Color) (s : State) :
    NextKeeps State.cfg s (execSSetlc h i c s) := by
  refine NextKeeps.whenAdmitted ?_
  split
  · exact nextKeeps_next (setLedColor_cfg h _ c s)
  · exact nextKeeps_next rfl

theorem execSUpdled_keeps_cfg (h : Hand) (i : Byte) (c : Color) (s : State) :
    NextKeeps State.cfg s (execSUpdled h i c s) := by
  refine NextKeeps.whenAdmitted ?_
  split
  · exact finish_shown_keeps_cfg _ (updateLed_keeps_cfg h _ c s)
  · exact nextKeeps_next rfl

theorem exec_keeps_cfg (i : Instr) (s : State) : NextKeeps State.cfg s (exec i s) := by
  cases i with
  | setup => exact (finish_shown_keeps_cfg _ (setupBlock_keeps_cfg s)).whenLive
  | scanm => exact (finish_shown_keeps_cfg _ (scanMatrix_keeps_cfg s)).whenAdmitted
  | nextev | getkc | ledpf | reboot | sGetlc => exact (nextKeeps_next (by rfl)).whenAdmitted
  | updleds => exact (finish_shown_keeps_cfg _ (updateLeds_keeps_cfg s)).whenAdmitted
  | setkc k c => exact execSetkc_keeps_cfg k c s
  | setksi v => exact execSetksi_keeps_cfg v s
  | sRdkeys h => exact (finish_shown_keeps_cfg _ (readKeys_keeps_cfg h s)).whenAdmitted
  | sSetlc h i c => exact execSSetlc_keeps_cfg h i c s
  | sUpdbank h => exact (finish_shown_keeps_cfg _ (updateNextLedBank_keeps_cfg h s)).whenAdmitted
  | sUpdled h i c => exact execSUpdled_keeps_cfg h i c s
  | sUpdall h c => exact (finish_shown_keeps_cfg _ (updateAllLeds_keeps_cfg h c s)).whenAdmitted
  | sSetksi | sSetspi => exact (finish_shown_keeps_cfg _ (busWrite_keeps_cfg _ _ s)).whenAdmitted
  | sRdver h | sRdksi h | sRdspi h => exact (finish_shown_keeps_cfg _ (readRegister_keeps_cfg h _ s)).whenAdmitted
  | ledSetOne dev | ledSetAll dev | ledBank dev | keyscanInterval dev | ledSpiFrequency dev | regselVersion dev
  | regselKsi dev | regselSpi dev => exact (frameTransaction_keeps_cfg dev _ s).whenIssued
  | keydata dev | reg dev => exact (replyTransaction_keeps_cfg dev _ _ s).whenIssued

/-! ## Inputs and steps -/

@[simp] theorem takeInput_cfg (s : State) (i : Input) : (takeInput s i).cfg = s.cfg := by cases i <;> rfl

theorem step_keeps_cfg {s t : State} (h : step s = .next t) : t.cfg = s.cfg := by
  obtain ⟨-, -, rfl⟩ | ⟨p, rest, i, left, -, -, hexec⟩ | ⟨i, rest, -, -, -, rfl⟩ := step_cases h
  · rfl
  · exact (exec_keeps_cfg i _ t hexec).trans (State.withInbox_cfg s _)
  · exact takeInput_cfg _ i

end Sys2Proof.Machine
end

section
/-! # The statements of 00_scope.md -/

namespace Sys2Proof.Machine

/-- Settles O3, by the step's equation for a decoded packet. -/
theorem stepRunsTheDecodedInstruction : Obligations.StepRunsTheDecodedInstruction :=
  fun _ _ _ _ _ hin hdecode => step_of_decoded hin hdecode

/-- Settles O6: the five checks one by one, and the check of the configuration that every meaning and every step begins
with. -/
theorem configurationIsCheckedByFiveConditions : Obligations.ConfigurationIsCheckedByFiveConditions := by
  refine ⟨fun cfg => ?_, fun i _ => exec_of_illFormedConfig i, fun _ => step_of_illFormedConfig, configOk_default,
    ledOfKey_default⟩
  rw [configOk_iff, commandsOk_iff, addressesOk_iff, mapOk_iff, gammaOk_iff, intervalOk_iff]

/-- Settles O10, by the cases of a step: each instruction and each input keeps the configuration. -/
theorem stepKeepsTheConfiguration : Obligations.StepKeepsTheConfiguration :=
  fun _ _ => step_keeps_cfg

end Sys2Proof.Machine
end

section
/-! # What an instruction can do

Every instruction is a path of single writes. Each write is one of three: something outside the block's registers (the
result, the environment, an entry at the end of the history), the stuck bit, or one register of 10_state.md R10 by an
instruction its table lists as a writer, with a value the register may take. What holds along every such path holds of every
instruction. -/

namespace Sys2Proof.Machine

/-! ## The registers and their writers (10_state.md R10) -/

/-- A register of the block. The history is not among them: every bus operation appends to it (R27). -/
inductive Register where
  | currScan | prevScan | evPos | lastFlush | initialized | halted | fb | dirty | cursor | powerEn

namespace Register

/-- The type of a register's value. -/
abbrev Value : Register → Type
  | currScan | prevScan => Pair Scan
  | evPos => BitVec 7
  | lastFlush => Nat
  | initialized | halted | powerEn => Bool
  | fb => Pair (Vector Color 32)
  | dirty => Pair (BitVec 4)
  | cursor => Pair (BitVec 2)

/-- The register's value in a state. -/
def get : (r : Register) → State → r.Value
  | currScan => State.currScan
  | prevScan => State.prevScan
  | evPos => State.evPos
  | lastFlush => State.lastFlush
  | initialized => State.initialized
  | halted => State.halted
  | fb => State.fb
  | dirty => State.dirty
  | cursor => State.cursor
  | powerEn => State.powerEn

/-- The state with the register replaced. -/
def set : (r : Register) → State → r.Value → State
  | currScan => State.withCurrScan
  | prevScan => State.withPrevScan
  | evPos => State.withEvPos
  | lastFlush => State.withLastFlush
  | initialized => State.withInitialized
  | halted => State.withHalted
  | fb => State.withFb
  | dirty => State.withDirty
  | cursor => State.withCursor
  | powerEn => State.withPowerEn

/-- The writers that the table of 10_state.md R10 lists for the register. -/
def WrittenBy : Register → Instr → Prop
  | currScan, i | prevScan, i => i = .scanm ∨ i = .setup
  | evPos, i => i = .scanm ∨ i = .nextev ∨ i = .setup
  | lastFlush, i => i = .updleds ∨ i = .setup
  | initialized, i | powerEn, i => i = .setup
  | halted, i => i = .reboot
  | fb, i => (∃ h j c, i = .sSetlc h j c) ∨ (∃ h j c, i = .sUpdled h j c) ∨ (∃ h c, i = .sUpdall h c) ∨
      (∃ k c, i = .setkc k c) ∨ i = .setup
  | dirty, i => (∃ h j c, i = .sSetlc h j c) ∨ (∃ k c, i = .setkc k c) ∨ (∃ h, i = .sUpdbank h) ∨
      (∃ h c, i = .sUpdall h c) ∨ i = .updleds ∨ i = .setup
  | cursor, i => (∃ h, i = .sUpdbank h) ∨ i = .updleds ∨ i = .setup

/-- The values an operation may write into the register of a state: no operation takes the iterator past its end (R15), the
time stamp is a sample (R20), a written colour is in stored form (42_led_sync.md R181), and an operation only sets the mode
bits and the power bit (R21, R22, R26). -/
def Allowed : (r : Register) → State → r.Value → Prop
  | evPos, s, v => s.evPos.toNat ≤ 64 → v.toNat ≤ 64
  | lastFlush, s, v => v < 2 ^ s.cfg.timerBits
  | fb, s, v => ∀ h j, ledAt (v.get h) j = ledAt (s.fb.get h) j ∨ ∃ c, ledAt (v.get h) j = quantise s.cfg c
  | initialized, _, v | halted, _, v | powerEn, _, v => v = true
  | currScan, _, _ | prevScan, _, _ | dirty, _, _ | cursor, _, _ => True

theorem get_set_of_ne {r q : Register} (h : r ≠ q) (s : State) (v : q.Value) : r.get (q.set s v) = r.get s := by
  cases r <;> cases q <;> first | rfl | exact absurd rfl h

theorem get_stuck (r : Register) (s : State) : r.get s.stuck = r.get s := by cases r <;> rfl

theorem set_busLog (r : Register) (s : State) (v : r.Value) : (r.set s v).busLog = s.busLog := by cases r <;> rfl

theorem get_of_sameBlock (r : Register) {s t : State} (h : SameBlock s t) : r.get t = r.get s := by
  cases r with
  | currScan => exact h.currScan
  | prevScan => exact h.prevScan
  | evPos => exact h.evPos
  | lastFlush => exact h.lastFlush
  | initialized => exact h.initialized
  | halted => exact h.halted
  | fb => exact h.fb
  | dirty => exact h.dirty
  | cursor => exact h.cursor
  | powerEn => exact h.powerEn

end Register

/-- What no instruction writes besides the configuration (10_state.md R24, R25): the input pins and the pending inputs. -/
structure SameInputs (s t : State) : Prop where
  msNow : t.msNow = s.msNow
  overcurrent : t.overcurrent = s.overcurrent
  inbox : t.inbox = s.inbox

theorem SameInputs.refl (s : State) : SameInputs s s := ⟨rfl, rfl, rfl⟩

theorem SameInputs.trans {s t u : State} (h : SameInputs s t) (k : SameInputs t u) : SameInputs s u :=
  ⟨k.msNow.trans h.msNow, k.overcurrent.trans h.overcurrent, k.inbox.trans h.inbox⟩

theorem SameBlock.sameInputs {s t : State} (h : SameBlock s t) : SameInputs s t :=
  ⟨h.msNow, h.overcurrent, h.inbox⟩

theorem Register.sameInputs_set (r : Register) (s : State) (v : r.Value) : SameInputs s (r.set s v) := by
  cases r <;> exact ⟨rfl, rfl, rfl⟩

/-! ## One write, and a path of writes -/

/-- One write that instruction `i` may make in state `s`. -/
inductive Writes (i : Instr) (s : State) : State → Prop
  | outside {t : State} (block : SameBlock s t) (log : s.busLog <+: t.busLog) : Writes i s t
  | stuck : Writes i s s.stuck
  | register (r : Register) (v : r.Value) (written : r.WrittenBy i) (allowed : r.Allowed s v) : Writes i s (r.set s v)

/-- Instruction `i` may lead from one state to the other by writes of its own. -/
abbrev Reaches (i : Instr) : State → State → Prop := Relation.ReflTransGen (Writes i)

section
variable {i : Instr} {s t : State}

theorem Writes.get_eq (w : Writes i s t) {r : Register} (hr : ¬ r.WrittenBy i) : r.get t = r.get s := by
  cases w with
  | outside block _ => exact r.get_of_sameBlock block
  | stuck => exact r.get_stuck s
  | register q v written _ =>
    refine Register.get_set_of_ne ?_ s v
    rintro rfl
    exact hr written

theorem Writes.sameInputs (w : Writes i s t) : SameInputs s t := by
  cases w with
  | outside block _ => exact block.sameInputs
  | stuck => exact ⟨rfl, rfl, rfl⟩
  | register r v _ _ => exact r.sameInputs_set s v

theorem Writes.log_grows (w : Writes i s t) : s.busLog <+: t.busLog := by
  cases w with
  | outside _ log => exact log
  | stuck => exact List.prefix_rfl
  | register r v _ _ => rw [r.set_busLog]

/-- No instruction clears `initialized` or `power_en` (10_state.md R21, R26). -/
theorem Writes.keeps_powered (w : Writes i s t) (h : s.initialized = true ∧ s.powerEn = true) :
    t.initialized = true ∧ t.powerEn = true := by
  cases w with
  | outside block _ => exact ⟨block.initialized.trans h.1, block.powerEn.trans h.2⟩
  | stuck => exact h
  | register r v _ allowed =>
    cases r with
    | initialized => exact ⟨allowed, h.2⟩
    | powerEn => exact ⟨h.1, allowed⟩
    | _ => exact h

/-- An instruction leaves alone every register that the table does not list it for. -/
theorem Reaches.get_eq (h : Reaches i s t) {r : Register} (hr : ¬ r.WrittenBy i) : r.get t = r.get s := by
  induction h with
  | refl => rfl
  | tail _ w ih => exact (w.get_eq hr).trans ih

theorem Reaches.sameInputs (h : Reaches i s t) : SameInputs s t := by
  induction h with
  | refl => exact .refl s
  | tail _ w ih => exact ih.trans w.sameInputs

theorem Reaches.log_grows (h : Reaches i s t) : s.busLog <+: t.busLog := by
  induction h with
  | refl => exact List.prefix_rfl
  | tail _ w ih => exact ih.trans w.log_grows

theorem Reaches.keeps_powered (h : Reaches i s t) (hs : s.initialized = true ∧ s.powerEn = true) :
    t.initialized = true ∧ t.powerEn = true := by
  induction h with
  | refl => exact hs
  | tail _ w ih => exact w.keeps_powered ih

theorem reaches_register (r : Register) (v : r.Value) (hw : r.WrittenBy i) (ha : r.Allowed s v) :
    Reaches i s (r.set s v) := .single (.register r v hw ha)

/-- A change of the result or of the environment is a path. -/
theorem reaches_outside (hb : SameBlock s t) (hl : t.busLog = s.busLog) : Reaches i s t :=
  .single (.outside hb (by rw [hl]))

theorem reaches_withResult (i : Instr) (s : State) (r : Result) : Reaches i s (s.withResult r) :=
  reaches_outside (by constructor <;> rfl) rfl

end

/-! ## Runs and outcomes -/

/-- The run of a part of instruction `i` from `s` ends, returned or hung, in a state the instruction may reach. -/
def BusRun.Reaches {α : Type} (i : Instr) (s : State) : BusRun α → Prop
  | .returned _ t => Machine.Reaches i s t
  | .hung t => Machine.Reaches i s t

/-- The outcome of instruction `i` from `s`, if it is a next state, is one the instruction may reach. -/
def NextReaches (i : Instr) (s : State) (o : Host.Outcome State Fault Refusal) : Prop :=
  ∀ t, o = .next t → Reaches i s t

section
variable {α β : Type} {i : Instr} {s t : State}

theorem BusRun.Reaches.after {m : BusRun α} (hm : m.Reaches i t) (ht : Machine.Reaches i s t) : m.Reaches i s := by
  cases m with
  | returned a u => exact ht.trans hm
  | hung u => exact ht.trans hm

theorem BusRun.Reaches.andThen {m : BusRun α} {k : α → State → BusRun β} (hm : m.Reaches i s)
    (hk : ∀ a t, (k a t).Reaches i t) : (m.andThen k).Reaches i s := by
  cases m with
  | returned a t => exact (hk a t).after hm
  | hung t => exact hm

theorem busWrite_reaches (i : Instr) (dev : BitVec 7) (bytes : List Byte) (s : State) :
    (busWrite dev bytes s).Reaches i s := by
  obtain ⟨st, t, hrun, ht⟩ | ⟨t, hrun, ht, -⟩ := busWrite_cases dev bytes s
  · rw [hrun]
    exact .single (.outside ht.block (ht.busLog ▸ List.prefix_append _ _))
  · rw [hrun]
    exact reaches_outside ht.block ht.busLog

theorem busRead_reaches (i : Instr) (dev : BitVec 7) (n : Nat) (s : State) : (busRead dev n s).Reaches i s := by
  obtain ⟨r, t, hrun, ht⟩ | ⟨t, hrun, ht, -⟩ := busRead_cases dev n s
  · rw [hrun]
    exact .single (.outside ht.block (ht.busLog ▸ List.prefix_append _ _))
  · rw [hrun]
    exact reaches_outside ht.block ht.busLog

theorem nextReaches_next (h : Reaches i s t) : NextReaches i s (.next t) := by
  rintro _ ⟨⟩
  exact h

theorem nextReaches_result (h : Reaches i s t) (r : Result) : NextReaches i s (.next (t.withResult r)) :=
  nextReaches_next (h.trans (reaches_withResult i t r))

theorem finish_reaches {m : BusRun Result} (hm : m.Reaches i s) : NextReaches i s (finish m) := by
  cases m with
  | returned r t => exact nextReaches_result hm r
  | hung t => exact nextReaches_next (hm.trans (.single .stuck))

theorem finish_shown_reaches {m : BusRun α} (shown : α → Result) (hm : m.Reaches i s) :
    NextReaches i s (finish (m.andThen fun a t => .returned (shown a) t)) :=
  finish_reaches (hm.andThen fun _ _ => .refl)

variable {run : Host.Outcome State Fault Refusal}

theorem NextReaches.whenLive (h : NextReaches i s run) : NextReaches i s (whenLive s run) :=
  fun t ht => h t (whenLive_next ht).2

theorem NextReaches.whenAdmitted (h : NextReaches i s run) : NextReaches i s (whenAdmitted s run) :=
  fun t ht => h t (whenAdmitted_next ht).2

theorem NextReaches.whenIssued {j : Instr} (h : NextReaches i s run) : NextReaches i s (whenIssued j s run) :=
  fun t ht => h t (whenIssued_next ht).2.2

end

end Sys2Proof.Machine
end

section
/-! # The values written

The values of R15, R20 and R181: the iterator does not pass 64, the time stamp is a sample, and a written colour is in
stored form. -/

namespace Sys2Proof.Machine

/-! ## The iterator (41_key_scan_edge.md R142) -/

/-- A position at which a bank may be skipped is the first of a bank. -/
theorem dvd_of_atUnchangedBank {curr prev : Pair Scan} {pos : Nat}
    (h : atUnchangedBank curr prev (BitVec.ofNat 6 pos) = true) : 8 ∣ pos := by
  obtain ⟨hpos, -⟩ := Bool.and_eq_true_iff.mp h
  have h0 := congrArg BitVec.toNat (beq_iff_eq.mp hpos)
  simp [keyBitpos] at h0
  omega

theorem nextEventFrom_le (curr prev : Pair Scan) (fuel : Nat) {pos : Nat} (h : pos ≤ 64) :
    (nextEventFrom curr prev fuel pos).1 ≤ 64 := by
  induction fuel generalizing pos with
  | zero => exact h
  | succ fuel ih =>
    rw [nextEventFrom]
    split
    · split
      · rename_i hskip
        have := dvd_of_atUnchangedBank hskip
        exact ih (by omega)
      · split
        · simp only
          omega
        · exact ih (by omega)
    · exact h

theorem nextEvent_allowed (s : State) : Register.evPos.Allowed s (BitVec.ofNat 7 (nextEvent s).1) := fun h => by
  have := nextEventFrom_le s.currScan s.prevScan 64 h
  rw [BitVec.toNat_ofNat]
  exact (Nat.mod_le _ _).trans this

/-! ## The time stamp (10_state.md R20) -/

theorem timeSample_lt (cfg : Config) (ms : Nat) : timeSample cfg ms < 2 ^ cfg.timerBits :=
  Nat.mod_lt _ (Nat.two_pow_pos _)

/-! ## Stored colours (42_led_sync.md R181) -/

theorem shrink5_expand5 (x : BitVec 5) : shrink5 (expand5 x) = x := by
  unfold shrink5 expand5
  decide +revert +kernel

/-- A colour in stored form stays as it is when it is stored again. -/
@[simp] theorem quantise_quantise (cfg : Config) (c : Color) : quantise cfg (quantise cfg c) = quantise cfg c := by
  unfold quantise
  cases cfg.colorMode with
  | rgb888 => rfl
  | rgb555 => simp only [shrink5_expand5]

/-- One hand's new LEDs, each the old one or in stored form, may be written. -/
theorem fb_set_allowed {s : State} {h : Hand} {leds : Vector Color 32}
    (hleds : ∀ j, ledAt leds j = ledAt (s.fb.get h) j ∨ ∃ c, ledAt leds j = quantise s.cfg c) :
    Register.fb.Allowed s (s.fb.set h leds) := fun k j => by
  by_cases hk : k = h
  · subst hk
    rw [Pair.get_set_same]
    exact hleds j
  · rw [Pair.get_set_other _ hk]
    exact .inl rfl

end Sys2Proof.Machine
end

section
/-! # The paths of the operations

Each part of each operation writes only along the paths of the instruction it belongs to. -/

namespace Sys2Proof.Machine

section
variable {i : Instr}

/-! ## The parts of the operations -/

theorem readKeys_reaches (i : Instr) (h : Hand) (s : State) : (readKeys h s).Reaches i s :=
  (busRead_reaches i _ _ s).andThen fun _ _ => .refl

theorem readRegister_reaches (i : Instr) (h : Hand) (sel : Byte) (s : State) :
    (readRegister h sel s).Reaches i s := by
  refine (busWrite_reaches i _ _ s).andThen fun status t => ?_
  split
  · exact (busRead_reaches i _ _ t).andThen fun _ _ => .refl
  · exact .refl

theorem storeScan_reaches (h : Hand) (d : Option Scan) (s : State) : Reaches .scanm s (storeScan h d s) := by
  cases d with
  | none => exact .refl
  | some d => exact reaches_register .currScan _ (.inl rfl) trivial

theorem scanMatrix_reaches (s : State) : (scanMatrix s).Reaches .scanm s := by
  have hsave : Reaches .scanm s (s.withPrevScan s.currScan) := reaches_register .prevScan _ (.inl rfl) trivial
  refine ((readKeys_reaches _ .left _).after hsave).andThen fun d0 s1 => ?_
  refine ((readKeys_reaches _ .right _).after (storeScan_reaches .left d0 s1)).andThen fun d1 s2 => ?_
  exact (storeScan_reaches .right d1 s2).trans
    (reaches_register .evPos _ (.inl rfl) fun _ => Nat.zero_le 64)

theorem storeLed_reaches (hfb : Register.fb.WrittenBy i) (h : Hand) (j : BitVec 5) (c : Color) (s : State) :
    Reaches i s (storeLed h j c s) := by
  refine reaches_register .fb _ hfb (fb_set_allowed fun n => ?_)
  rw [ledAt_setLed]
  split
  · exact .inr ⟨c, rfl⟩
  · exact .inl rfl

theorem setLedColor_reaches (hfb : Register.fb.WrittenBy i) (hdirty : Register.dirty.WrittenBy i) (h : Hand)
    (j : BitVec 5) (c : Color) (s : State) : Reaches i s (setLedColor h j c s) := by
  unfold setLedColor
  split
  · exact .refl
  · exact (storeLed_reaches hfb h j c s).trans (reaches_register .dirty _ hdirty trivial)

theorem updateNextLedBank_reaches (hcursor : Register.cursor.WrittenBy i) (hdirty : Register.dirty.WrittenBy i)
    (h : Hand) (s : State) : (updateNextLedBank h s).Reaches i s := by
  have hadvance : Reaches i s (advanceCursor h s) := reaches_register .cursor _ hcursor trivial
  unfold updateNextLedBank flushSelected
  split
  · exact ((busWrite_reaches i _ _ _).after hadvance).andThen fun _ _ =>
      reaches_register .dirty _ hdirty trivial
  · exact hadvance

theorem updateLeds_reaches (s : State) : (updateLeds s).Reaches .updleds s := by
  have hflush := updateNextLedBank_reaches (i := .updleds) (.inr (.inl rfl))
    (.inr (.inr (.inr (.inr (.inl rfl)))))
  have hstamp : Reaches .updleds s (s.withLastFlush (timeSample s.cfg s.msNow)) :=
    reaches_register .lastFlush _ (.inl rfl) (timeSample_lt s.cfg s.msNow)
  unfold updateLeds
  split
  · exact ((hflush .left _).after hstamp).andThen fun _ t => hflush .right t
  · exact .refl

theorem updateLed_reaches (hfb : Register.fb.WrittenBy i) (h : Hand) (j : BitVec 5) (c : Color) (s : State) :
    (updateLed h j c s).Reaches i s :=
  (busWrite_reaches i _ _ s).andThen fun _ t => storeLed_reaches hfb h j c t

theorem fillLeds_reaches (hfb : Register.fb.WrittenBy i) (hdirty : Register.dirty.WrittenBy i) (h : Hand) (c : Color)
    (s : State) : Reaches i s (fillLeds h c s) := by
  have hfill : Reaches i s (s.withFb (s.fb.set h (Vector.replicate 32 (quantise s.cfg c)))) :=
    reaches_register .fb _ hfb (fb_set_allowed fun n => .inr ⟨c, ledAt_replicate _ n⟩)
  exact hfill.trans (reaches_register .dirty _ hdirty trivial)

theorem updateAllLeds_reaches (hfb : Register.fb.WrittenBy i) (hdirty : Register.dirty.WrittenBy i) (h : Hand)
    (c : Color) (s : State) : (updateAllLeds h c s).Reaches i s :=
  (busWrite_reaches i _ _ s).andThen fun _ t => fillLeds_reaches hfb hdirty h c t

end

/-! ## SETUP (43_system_ops.md R190) -/

theorem setupRegisters_reaches (s : State) : Reaches .setup s (setupRegisters s) := by
  refine .trans (reaches_register .powerEn true rfl rfl) ?_
  refine .trans (reaches_register .currScan (Pair.both 0) (.inr rfl) trivial) ?_
  refine .trans (reaches_register .prevScan (Pair.both 0) (.inr rfl) trivial) ?_
  refine .trans (reaches_register .evPos 64 (.inr (.inr rfl)) fun _ => Nat.le_refl 64) ?_
  exact reaches_register .initialized true rfl rfl

theorem setupTimers_reaches (s : State) : Reaches .setup s (setupTimers s) :=
  .trans (reaches_register .cursor (Pair.both 0) (.inr (.inr rfl)) trivial)
    (reaches_register .lastFlush _ (.inr rfl) (timeSample_lt s.cfg s.msNow))

/-- The part of SETUP from its first transaction on. -/
theorem setupBlock_reaches (s : State) : (setupBlock s).Reaches .setup (setupRegisters s) := by
  have hfill := updateAllLeds_reaches (i := .setup) (.inr (.inr (.inr (.inr rfl))))
    (.inr (.inr (.inr (.inr (.inr rfl)))))
  exact (hfill .left _ _).andThen fun _ s1 => (hfill .right _ s1).andThen fun _ s2 => setupTimers_reaches s2

/-- A SETUP that answers, hung or not, has powered the rails and set `initialized` before its first transaction. -/
theorem execSetup_reaches (s : State) : NextReaches .setup (setupRegisters s) (execSetup s) :=
  fun t ht => finish_shown_reaches (fun _ => .none) (setupBlock_reaches s) t (whenLive_next ht).2

/-! ## The operations -/

theorem frameTransaction_reaches (i : Instr) (dev : BitVec 7) (bytes : List Byte) (s : State) :
    NextReaches i s (frameTransaction dev bytes s) :=
  finish_shown_reaches _ (busWrite_reaches i dev bytes s)

theorem replyTransaction_reaches (i : Instr) (dev : BitVec 7) (bytes : List Byte) (shown : ReadResult → Result)
    (s : State) : NextReaches i s (replyTransaction dev bytes shown s) :=
  finish_shown_reaches shown ((busRead_reaches i dev _ _).after (reaches_outside (by constructor <;> rfl) rfl))

theorem execNextev_reaches (s : State) : NextReaches .nextev s (execNextev s) :=
  (nextReaches_result (reaches_register .evPos _ (.inr (.inl rfl)) (nextEvent_allowed s)) _).whenAdmitted

theorem execReboot_reaches (s : State) : NextReaches .reboot s (execReboot s) :=
  (nextReaches_result (reaches_register .halted true rfl rfl) _).whenAdmitted

theorem execSetksi_reaches (v : Byte) (s : State) : NextReaches (.setksi v) s (execSetksi v s) := by
  refine NextReaches.whenAdmitted (finish_reaches ?_)
  exact (busWrite_reaches _ _ _ s).andThen fun _ t => (busWrite_reaches _ _ _ t).andThen fun _ _ => .refl

theorem execSetkc_reaches (k : Byte) (c : Color) (s : State) : NextReaches (.setkc k c) s (execSetkc k c s) := by
  refine NextReaches.whenAdmitted ?_
  split
  · exact nextReaches_result (setLedColor_reaches (.inr (.inr (.inr (.inl ⟨k, c, rfl⟩)))) (.inr (.inl ⟨k, c, rfl⟩))
      _ _ c s) _
  · exact nextReaches_result .refl _

theorem execSSetlc_reaches (h : Hand) (j : Byte) (c : Color) (s : State) :
    NextReaches (.sSetlc h j c) s (execSSetlc h j c s) := by
  refine NextReaches.whenAdmitted ?_
  split
  · exact nextReaches_result (setLedColor_reaches (.inl ⟨h, j, c, rfl⟩) (.inl ⟨h, j, c, rfl⟩) h _ c s) _
  · exact nextReaches_result .refl _

theorem execSUpdbank_reaches (h : Hand) (s : State) : NextReaches (.sUpdbank h) s (execSUpdbank h s) :=
  (finish_shown_reaches _ (updateNextLedBank_reaches (.inl ⟨h, rfl⟩) (.inr (.inr (.inl ⟨h, rfl⟩))) h s)).whenAdmitted

theorem execSUpdled_reaches (h : Hand) (j : Byte) (c : Color) (s : State) :
    NextReaches (.sUpdled h j c) s (execSUpdled h j c s) := by
  refine NextReaches.whenAdmitted ?_
  split
  · exact finish_shown_reaches _ (updateLed_reaches (.inr (.inl ⟨h, j, c, rfl⟩)) h _ c s)
  · exact nextReaches_result .refl _

theorem execSUpdall_reaches (h : Hand) (c : Color) (s : State) : NextReaches (.sUpdall h c) s (execSUpdall h c s) :=
  (finish_shown_reaches _ (updateAllLeds_reaches (.inr (.inr (.inl ⟨h, c, rfl⟩)))
    (.inr (.inr (.inr (.inl ⟨h, c, rfl⟩)))) h c s)).whenAdmitted

/-- Everything an instruction can do: writes of its own, one after another. -/
theorem exec_reaches (i : Instr) (s : State) : NextReaches i s (exec i s) := by
  cases i with
  | setup => exact fun t ht => (setupRegisters_reaches s).trans (execSetup_reaches s t ht)
  | scanm => exact (finish_shown_reaches _ (scanMatrix_reaches s)).whenAdmitted
  | nextev => exact execNextev_reaches s
  | updleds => exact (finish_shown_reaches _ (updateLeds_reaches s)).whenAdmitted
  | setkc k c => exact execSetkc_reaches k c s
  | setksi v => exact execSetksi_reaches v s
  | reboot => exact execReboot_reaches s
  | getkc | ledpf | sGetlc => exact (nextReaches_result .refl _).whenAdmitted
  | sRdkeys h => exact (finish_shown_reaches _ (readKeys_reaches _ h s)).whenAdmitted
  | sSetlc h j c => exact execSSetlc_reaches h j c s
  | sUpdbank h => exact execSUpdbank_reaches h s
  | sUpdled h j c => exact execSUpdled_reaches h j c s
  | sUpdall h c => exact execSUpdall_reaches h c s
  | sSetksi | sSetspi => exact (finish_shown_reaches _ (busWrite_reaches _ _ _ s)).whenAdmitted
  | sRdver h | sRdksi h | sRdspi h => exact (finish_shown_reaches _ (readRegister_reaches _ h _ s)).whenAdmitted
  | ledSetOne dev | ledSetAll dev | ledBank dev | keyscanInterval dev | ledSpiFrequency dev | regselVersion dev
  | regselKsi dev | regselSpi dev => exact (frameTransaction_reaches _ dev _ s).whenIssued
  | keydata dev | reg dev => exact (replyTransaction_reaches _ dev _ _ s).whenIssued

end Sys2Proof.Machine
end

section
/-! # The state invariant (10_state.md R33)

The three range conditions of R33 hold along every path of writes, so every instruction of an initialised block keeps them;
SETUP establishes them by its own writes, whatever the registers held before. -/

namespace Sys2Proof.Machine

/-- The range conditions of 10_state.md R33 and R20, without the condition on when they hold. -/
structure State.InRange (s : State) : Prop where
  evPos : s.evPos.toNat ≤ 64
  lastFlush : s.lastFlush < 2 ^ s.cfg.timerBits
  fb : ∀ h i, quantise s.cfg (ledAt (s.fb.get h) i) = ledAt (s.fb.get h) i

theorem inv_iff (s : State) : s.Inv ↔ (s.initialized = true → s.hung = false → s.InRange) :=
  ⟨fun hinv hinit hhung => have ⟨hev, hflush, hfb⟩ := hinv hinit hhung; ⟨hev, hflush, hfb⟩,
    fun hinv hinit hhung => have hrange := hinv hinit hhung; ⟨hrange.evPos, hrange.lastFlush, hrange.fb⟩⟩

/-! ## Along a path -/

theorem State.InRange.of_sameBlock {s t : State} (hs : s.InRange) (h : SameBlock s t) : t.InRange := by
  obtain ⟨hev, hflush, hfb⟩ := hs
  constructor
  · rwa [h.evPos]
  · rwa [h.lastFlush, h.cfg]
  · rwa [h.fb, h.cfg]

theorem State.InRange.set {s : State} (hs : s.InRange) {r : Register} {v : r.Value} (ha : r.Allowed s v) :
    (r.set s v).InRange := by
  cases r with
  | evPos => exact ⟨ha hs.evPos, hs.lastFlush, hs.fb⟩
  | lastFlush => exact ⟨hs.evPos, ha, hs.fb⟩
  | fb =>
    refine ⟨hs.evPos, hs.lastFlush, fun h j => ?_⟩
    change quantise s.cfg (ledAt (v.get h) j) = ledAt (v.get h) j
    obtain hold | ⟨c, hnew⟩ := ha h j
    · rw [hold, hs.fb]
    · rw [hnew, quantise_quantise]
  | _ => exact ⟨hs.evPos, hs.lastFlush, hs.fb⟩

theorem Writes.keeps_inRange {i : Instr} {s t : State} (w : Writes i s t) (hs : s.InRange) : t.InRange := by
  cases w with
  | outside block _ => exact hs.of_sameBlock block
  | stuck => exact ⟨hs.evPos, hs.lastFlush, hs.fb⟩
  | register r v _ allowed => exact hs.set allowed

theorem Reaches.keeps_inRange {i : Instr} {s t : State} (h : Reaches i s t) (hs : s.InRange) : t.InRange := by
  induction h with
  | refl => exact hs
  | tail _ w ih => exact w.keeps_inRange ih

/-- Every instruction but SETUP begins with the admission of R194. -/
theorem exec_eq_whenAdmitted {i : Instr} (hi : i ≠ .setup) (s : State) : ∃ run, exec i s = whenAdmitted s run := by
  cases i with
  | setup => exact absurd rfl hi
  | _ => exact ⟨_, rfl⟩

theorem ready_of_exec_next {i : Instr} (hi : i ≠ .setup) {s t : State} (h : exec i s = .next t) : s.Ready := by
  obtain ⟨run, hrun⟩ := exec_eq_whenAdmitted hi s
  exact (whenAdmitted_next (hrun ▸ h)).1

/-! ## SETUP establishes it -/

theorem BusRun.andThen_returned {α β : Type} {m : BusRun α} {k : α → State → BusRun β} {b : β} {t : State}
    (h : m.andThen k = .returned b t) : ∃ a u, m = .returned a u ∧ k a u = .returned b t := by
  cases m with
  | returned a u => exact ⟨a, u, rfl, h⟩
  | hung u => cases h

/-- The outcome of an operation is the state of a run that returned, with its result, or of one that hung, stuck. -/
theorem finish_cases {m : BusRun Result} {t : State} (h : finish m = .next t) :
    (∃ r u, m = .returned r u ∧ t = u.withResult r) ∨ ∃ u, m = .hung u ∧ t = u.stuck := by
  cases m with
  | returned r u => cases h; exact .inl ⟨r, u, rfl, rfl⟩
  | hung u => cases h; exact .inr ⟨u, rfl, rfl⟩

theorem updateAllLeds_returned {h : Hand} {c : Color} {s t : State} {st : Byte}
    (hrun : updateAllLeds h c s = .returned st t) : ∃ u, SameBlock s u ∧ t = fillLeds h c u := by
  obtain ⟨st', u, hwrite, hstore⟩ := BusRun.andThen_returned hrun
  cases hstore
  refine ⟨u, ?_, rfl⟩
  obtain ⟨_, _, h', hu⟩ | ⟨_, h', -, -⟩ := busWrite_cases _ _ s
  · cases h'.symm.trans hwrite; exact hu.block
  · cases h'.symm.trans hwrite

theorem fillLeds_get_same (h : Hand) (c : Color) (s : State) (j : BitVec 5) :
    ledAt ((fillLeds h c s).fb.get h) j = quantise s.cfg c := by
  simp [fillLeds]

theorem fillLeds_get_other {h k : Hand} (hk : k ≠ h) (c : Color) (s : State) :
    (fillLeds h c s).fb.get k = s.fb.get k :=
  Pair.get_set_other _ hk _

theorem setupBlock_inRange {s t : State} (h : setupBlock s = .returned () t) : t.InRange := by
  obtain ⟨_, s1, hleft, h⟩ := BusRun.andThen_returned h
  obtain ⟨_, s2, hright, h⟩ := BusRun.andThen_returned h
  cases h
  obtain ⟨u1, hb1, rfl⟩ := updateAllLeds_returned hleft
  obtain ⟨u2, hb2, rfl⟩ := updateAllLeds_returned hright
  refine ⟨?_, timeSample_lt u2.cfg u2.msNow, fun k j => ?_⟩
  · have hpos : u2.evPos = 64 := hb2.evPos.trans hb1.evPos
    exact (congrArg BitVec.toNat hpos).le
  · change quantise u2.cfg (ledAt ((fillLeds .right Color.black u2).fb.get k) j) =
      ledAt ((fillLeds .right Color.black u2).fb.get k) j
    cases k with
    | left =>
      have hcfg : u2.cfg = u1.cfg := hb2.cfg
      rw [fillLeds_get_other (by decide), hb2.fb, fillLeds_get_same, hcfg, quantise_quantise]
    | right => rw [fillLeds_get_same, quantise_quantise]

theorem execSetup_establishes_inv {s t : State} (h : execSetup s = .next t) : t.Inv := by
  refine (inv_iff t).mpr fun _ hhung => ?_
  obtain ⟨r, u, hrun, rfl⟩ | ⟨u, -, rfl⟩ := finish_cases (whenLive_next h).2
  · obtain ⟨_, v, hblock, hresult⟩ := BusRun.andThen_returned hrun
    cases hresult
    exact (setupBlock_inRange hblock).of_sameBlock (by constructor <;> rfl)
  · cases hhung

/-! ## Instructions, inputs, steps -/

theorem exec_keeps_inv {i : Instr} {s t : State} (hs : s.Inv) (h : exec i s = .next t) : t.Inv := by
  by_cases hi : i = .setup
  · subst hi
    exact execSetup_establishes_inv h
  · obtain ⟨⟨-, hhung, -⟩, hinit⟩ := ready_of_exec_next hi h
    exact (inv_iff t).mpr fun _ _ => (exec_reaches i s t h).keeps_inRange ((inv_iff s).mp hs hinit hhung)

/-- No input writes a register of R33 but the watchdog, which clears `initialized` (70_reset_and_hazards.md R241). -/
theorem takeInput_keeps_inv {s : State} (hs : s.Inv) (i : Input) : (takeInput s i).Inv := by
  cases i with
  | watchdog => exact fun hinit => Bool.noConfusion hinit
  | _ => exact hs

theorem step_keeps_inv {s t : State} (hs : s.Inv) (h : step s = .next t) : t.Inv := by
  obtain ⟨-, -, rfl⟩ | ⟨p, rest, i, left, -, -, hexec⟩ | ⟨i, rest, -, -, -, rfl⟩ := step_cases h
  · exact hs
  · exact exec_keeps_inv (s := s.withInbox (restOfInbox left rest)) hs hexec
  · exact takeInput_keeps_inv (s := s.withInbox rest) hs i

/-! ## The history (10_state.md R27) -/

/-- No input is a transaction; the watchdog keeps the history (70_reset_and_hazards.md R241). -/
@[simp] theorem takeInput_busLog (s : State) (i : Input) : (takeInput s i).busLog = s.busLog := by cases i <;> rfl

theorem step_log_grows {s t : State} (h : step s = .next t) : s.busLog <+: t.busLog := by
  obtain ⟨-, -, rfl⟩ | ⟨p, rest, i, left, -, -, hexec⟩ | ⟨i, rest, -, -, -, rfl⟩ := step_cases h
  · exact List.prefix_rfl
  · exact (exec_reaches i (s.withInbox _) t hexec).log_grows
  · rw [takeInput_busLog, State.withInbox_busLog]

/-! ## A step that takes an input (30_encoding.md R102) -/

/-- Under a well-formed configuration a step that takes an input does what the input says and nothing else. -/
theorem step_takes_input {s : State} {i : Input} {rest : List Input} (hc : configOk s.cfg = true)
    (h : s.inbox = i :: rest) (hi : ∀ p, i ≠ .packet p) : step s = .next (takeInput (s.withInbox rest) i) := by
  rw [step_of_input h hi, whenConfigured_of_ok hc]

end Sys2Proof.Machine
end

section
/-! # The statements of 10_state.md: invariants and writers -/

namespace Sys2Proof.Machine

/-- Settles O20, by the cases of a step: along a path of writes the ranges are kept, SETUP establishes them, and the
watchdog leaves the block uninitialised. -/
theorem stepKeepsTheStateInvariant : Obligations.StepKeepsTheStateInvariant :=
  fun _ _ => step_keeps_inv

/-- Settles O23, by the cases of a step: each single write of an instruction leaves the history as it is or appends to it. -/
theorem historyOnlyGrows : Obligations.HistoryOnlyGrows := fun s t h => by
  obtain ⟨l, hl⟩ := step_log_grows h
  exact ⟨l, hl.symm⟩

theorem exec_writes_only_its_registers {i : Instr} {s t : State} (h : exec i s = .next t) {r : Register}
    (hr : ¬ r.WrittenBy i) : r.get t = r.get s :=
  (exec_reaches i s t h).get_eq hr

theorem exec_setup_powers {s t : State} (h : exec .setup s = .next t) : t.initialized = true ∧ t.powerEn = true :=
  (execSetup_reaches s t h).keeps_powered ⟨rfl, rfl⟩

/-- Settles O24: an instruction's path writes only the registers that the table of R10 lists it for, and a step that takes
an input is that input's one write. -/
theorem registersAreWrittenOnlyByTheirWriters : Obligations.RegistersAreWrittenOnlyByTheirWriters := by
  refine ⟨fun i s t h => ?_, fun s rest hc => ⟨?_, ?_, ?_, ?_, ?_⟩⟩
  · have hkeeps : ∀ r : Register, ¬ r.WrittenBy i → r.get t = r.get s := fun _ => exec_writes_only_its_registers h
    have hcfg : t.cfg = s.cfg := exec_keeps_cfg i s t h
    obtain ⟨hms, hover, hinbox⟩ := (exec_reaches i s t h).sameInputs
    refine ⟨?scans, ?evPos, ?lastFlush, ?modes, ?setup, ?halted, ?fb, ?dirty, ?cursor, hcfg, hms, hover, hinbox⟩
    case scans =>
      intro hscanm hsetup
      exact ⟨hkeeps .currScan (not_or.mpr ⟨hscanm, hsetup⟩), hkeeps .prevScan (not_or.mpr ⟨hscanm, hsetup⟩)⟩
    case evPos =>
      intro hscanm hnextev hsetup
      exact hkeeps .evPos (by simp [Register.WrittenBy, *])
    case lastFlush =>
      intro hupdleds hsetup
      exact hkeeps .lastFlush (by simp [Register.WrittenBy, *])
    case modes =>
      intro hsetup
      exact ⟨hkeeps .initialized hsetup, hkeeps .powerEn hsetup⟩
    case setup =>
      rintro rfl
      exact exec_setup_powers h
    case halted => exact hkeeps .halted
    case fb =>
      intro hsetlc hupdled hupdall hsetkc hsetup
      exact hkeeps .fb (by simp [Register.WrittenBy, *])
    case dirty =>
      intro hsetlc hsetkc hupdbank hupdall hupdleds hsetup
      exact hkeeps .dirty (by simp [Register.WrittenBy, *])
    case cursor =>
      intro hupdbank hupdleds hsetup
      exact hkeeps .cursor (by simp [Register.WrittenBy, *])
  · exact fun _ hin => step_takes_input hc hin (by simp)
  · exact fun _ hin => step_takes_input hc hin (by simp)
  · exact fun _ _ hin => step_takes_input hc hin (by simp)
  · exact fun _ _ hin => step_takes_input hc hin (by simp)
  · exact fun _ hin => step_takes_input hc hin (by simp)

/-- Settles O19. -/
theorem resetLeavesTheBlockUninitialised : Obligations.ResetLeavesTheBlockUninitialised :=
  ⟨rfl, rfl, rfl, rfl, rfl⟩

/-- Settles O21: after reset `setup` has not completed. -/
theorem resetMeetsTheStateInvariant : Obligations.ResetMeetsTheStateInvariant :=
  fun hinit => Bool.noConfusion hinit

end Sys2Proof.Machine
end

section
/-! # What an instruction does not read

A disguise changes the input pins and puts a longer past in front of the history. Nothing an instruction does depends on
either, but for the pins' readers (10_state.md R24, R25, R27): the instruction on the disguised state is the disguised
instruction. -/

namespace Sys2Proof.Machine

/-- Another level for the time input, another for the overcurrent input, and more past. -/
structure Disguise where
  msNow : Option Nat
  overcurrent : Option Bool
  past : List Transaction

/-- The state with the pins of the disguise, where it has any, and its past before the history. -/
@[simps] def State.disguised (s : State) (d : Disguise) : State :=
  { s with
    msNow := d.msNow.getD s.msNow
    overcurrent := d.overcurrent.getD s.overcurrent
    busLog := d.past ++ s.busLog }

/-- The run with the state it ends in disguised. -/
def BusRun.disguised {α : Type} (d : Disguise) : BusRun α → BusRun α
  | .returned a s => .returned a (s.disguised d)
  | .hung s => .hung (s.disguised d)

/-- The outcome with its next state, if any, disguised. -/
abbrev disguisedNext (d : Disguise) : Host.Outcome State Fault Refusal → Host.Outcome State Fault Refusal :=
  mapNext fun t => t.disguised d

section
variable {α β : Type} (d : Disguise)

/-! ## The bus -/

theorem logged_disguised (s : State) (t : Transaction) : (s.disguised d).logged t = (s.logged t).disguised d := by
  simp [State.logged, State.disguised, State.withBusLog]

theorem takeTurn_disguised (s : State) :
    takeTurn (s.disguised d) = ((takeTurn s).1, (takeTurn s).2.disguised d) := by
  unfold takeTurn
  rw [State.disguised_turns]
  cases s.turns <;> rfl

theorem respondWrite_disguised (dev : BitVec 7) (bytes : List Byte) (s : State) :
    respondWrite dev bytes (s.disguised d) =
      ((respondWrite dev bytes s).1, (respondWrite dev bytes s).2.disguised d) := by
  unfold respondWrite
  rw [State.disguised_cfg]
  cases handOfDev s.cfg dev <;> rfl

theorem respondRead_disguised (dev : BitVec 7) (n : Nat) (s : State) :
    respondRead dev n (s.disguised d) = ((respondRead dev n s).1, (respondRead dev n s).2.disguised d) := by
  unfold respondRead
  rw [State.disguised_cfg]
  cases handOfDev s.cfg dev <;> rfl

theorem forcedRead_disguised (n : Nat) (status : Byte) (bytes : List Byte) (s : State) :
    forcedRead n status bytes (s.disguised d) =
      ((forcedRead n status bytes s).1, (forcedRead n status bytes s).2.disguised d) := by
  unfold forcedRead
  split
  · rfl
  · split <;> rfl

theorem writeReturned_disguised (dev : BitVec 7) (bytes : List Byte) (status : Byte) (s : State) :
    writeReturned dev bytes (status, s.disguised d) = (writeReturned dev bytes (status, s)).disguised d :=
  congrArg (BusRun.returned status) (logged_disguised d s _)

theorem readReturned_disguised (dev : BitVec 7) (n : Nat) (r : ReadResult) (s : State) :
    readReturned dev n (r, s.disguised d) = (readReturned dev n (r, s)).disguised d :=
  congrArg (BusRun.returned r) (logged_disguised d s _)

theorem busWrite_disguised (dev : BitVec 7) (bytes : List Byte) (s : State) :
    busWrite dev bytes (s.disguised d) = (busWrite dev bytes s).disguised d := by
  unfold busWrite
  rw [takeTurn_disguised]
  cases (takeTurn s).1 with
  | hang => rfl
  | forced status _ => exact writeReturned_disguised d dev bytes status _
  | responder =>
    simp only [respondWrite_disguised]
    exact writeReturned_disguised d dev bytes _ _

theorem busRead_disguised (dev : BitVec 7) (n : Nat) (s : State) :
    busRead dev n (s.disguised d) = (busRead dev n s).disguised d := by
  unfold busRead
  rw [takeTurn_disguised]
  cases (takeTurn s).1 with
  | hang => rfl
  | forced status bytes =>
    simp only [forcedRead_disguised]
    exact readReturned_disguised d dev n _ _
  | responder =>
    simp only [respondRead_disguised]
    exact readReturned_disguised d dev n _ _

/-! ## Sequencing, the end of an operation, admission -/

variable {d}

/-- Two parts that each do the same under the disguise do the same one after the other. -/
theorem BusRun.andThen_disguised {m m' : BusRun α} {k k' : α → State → BusRun β} (hm : m' = m.disguised d)
    (hk : ∀ a s, k' a (s.disguised d) = (k a s).disguised d) : m'.andThen k' = (m.andThen k).disguised d := by
  subst hm
  cases m with
  | returned a s => exact hk a s
  | hung s => rfl

theorem nextResult_disguised {s s' : State} (h : s' = s.disguised d) (r : Result) :
    .next (s'.withResult r) = disguisedNext d (.next (s.withResult r)) := by
  subst h
  rfl

theorem finish_disguised {m m' : BusRun Result} (hm : m' = m.disguised d) :
    finish m' = disguisedNext d (finish m) := by
  subst hm
  cases m <;> rfl

theorem finish_shown_disguised {m m' : BusRun α} (shown : α → Result) (hm : m' = m.disguised d) :
    finish (m'.andThen fun a t => .returned (shown a) t) =
      disguisedNext d (finish (m.andThen fun a t => .returned (shown a) t)) :=
  finish_disguised (BusRun.andThen_disguised hm fun _ _ => rfl)

variable {s : State} {run run' : Host.Outcome State Fault Refusal}

theorem whenLive_disguised (h : run' = disguisedNext d run) :
    whenLive (s.disguised d) run' = disguisedNext d (whenLive s run) := by
  subst h
  simp only [whenLive, whenConfigured, State.disguised_cfg, State.disguised_hung, State.disguised_halted]
  split
  · split
    · rfl
    · split <;> rfl
  · rfl

theorem whenAdmitted_disguised (h : run' = disguisedNext d run) :
    whenAdmitted (s.disguised d) run' = disguisedNext d (whenAdmitted s run) := by
  refine whenLive_disguised ?_
  rw [State.disguised_initialized]
  split
  · exact h
  · rfl

theorem whenIssued_disguised {i : Instr} (h : run' = disguisedNext d run) :
    whenIssued i (s.disguised d) run' = disguisedNext d (whenIssued i s run) := by
  refine whenAdmitted_disguised ?_
  rw [State.disguised_cfg]
  split
  · exact h
  · rfl

end

/-! ## The parts of the operations -/

section
variable (d : Disguise)

theorem readKeys_disguised (h : Hand) (s : State) : readKeys h (s.disguised d) = (readKeys h s).disguised d :=
  BusRun.andThen_disguised (busRead_disguised d _ _ s) fun _ _ => rfl

theorem readRegister_disguised (h : Hand) (sel : Byte) (s : State) :
    readRegister h sel (s.disguised d) = (readRegister h sel s).disguised d := by
  refine BusRun.andThen_disguised (busWrite_disguised d _ _ s) fun status t => ?_
  split
  · exact BusRun.andThen_disguised (busRead_disguised d _ _ t) fun _ _ => rfl
  · rfl

theorem storeScan_disguised (h : Hand) (scan : Option Scan) (s : State) :
    storeScan h scan (s.disguised d) = (storeScan h scan s).disguised d := by
  cases scan <;> rfl

theorem scanMatrix_disguised (s : State) : scanMatrix (s.disguised d) = (scanMatrix s).disguised d := by
  refine BusRun.andThen_disguised (readKeys_disguised d .left (s.withPrevScan s.currScan)) fun d0 s1 => ?_
  refine BusRun.andThen_disguised ?_ fun d1 s2 => ?_
  · rw [storeScan_disguised, readKeys_disguised]
  · rw [storeScan_disguised]
    rfl

theorem setLedColor_disguised (h : Hand) (j : BitVec 5) (c : Color) (s : State) :
    setLedColor h j c (s.disguised d) = (setLedColor h j c s).disguised d := by
  unfold setLedColor
  simp only [State.disguised_fb, State.disguised_cfg]
  split <;> rfl

theorem updateNextLedBank_disguised (h : Hand) (s : State) :
    updateNextLedBank h (s.disguised d) = (updateNextLedBank h s).disguised d := by
  change flushSelected h ((advanceCursor h s).disguised d) = (flushSelected h (advanceCursor h s)).disguised d
  generalize advanceCursor h s = s
  unfold flushSelected
  simp only [State.disguised_dirty, State.disguised_cursor]
  split
  · exact BusRun.andThen_disguised (busWrite_disguised d _ _ s) fun _ _ => rfl
  · rfl

theorem updateLed_disguised (h : Hand) (j : BitVec 5) (c : Color) (s : State) :
    updateLed h j c (s.disguised d) = (updateLed h j c s).disguised d :=
  BusRun.andThen_disguised (busWrite_disguised d _ _ s) fun _ _ => rfl

theorem updateAllLeds_disguised (h : Hand) (c : Color) (s : State) :
    updateAllLeds h c (s.disguised d) = (updateAllLeds h c s).disguised d :=
  BusRun.andThen_disguised (busWrite_disguised d _ _ s) fun _ _ => rfl

variable {d}

/-- UPDLEDS samples the time (10_state.md R24), so the disguise must show the same. -/
theorem updateLeds_disguised (hms : d.msNow = none) (s : State) :
    updateLeds (s.disguised d) = (updateLeds s).disguised d := by
  have htime : (s.disguised d).msNow = s.msNow := by simp [hms]
  unfold updateLeds
  rw [htime, State.disguised_cfg, State.disguised_lastFlush]
  split
  · exact BusRun.andThen_disguised (updateNextLedBank_disguised d .left (s.withLastFlush _)) fun _ t =>
      updateNextLedBank_disguised d .right t
  · rfl

/-- SETUP samples the time at its end (10_state.md R24), so the disguise must show the same. -/
theorem setupBlock_disguised (hms : d.msNow = none) (s : State) :
    setupBlock (s.disguised d) = (setupBlock s).disguised d := by
  refine BusRun.andThen_disguised (updateAllLeds_disguised d .left _ (setupRegisters s)) fun _ s1 => ?_
  refine BusRun.andThen_disguised (updateAllLeds_disguised d .right _ s1) fun _ s2 => ?_
  have htime : (s2.disguised d).msNow = s2.msNow := by simp [hms]
  unfold setupTimers
  rw [htime]
  rfl

/-! ## The operations -/

variable (d)

theorem frameTransaction_disguised (dev : BitVec 7) (bytes : List Byte) (s : State) :
    frameTransaction dev bytes (s.disguised d) = disguisedNext d (frameTransaction dev bytes s) :=
  finish_shown_disguised _ (busWrite_disguised d dev bytes s)

theorem replyTransaction_disguised (dev : BitVec 7) (bytes : List Byte) (shown : ReadResult → Result) (s : State) :
    replyTransaction dev bytes shown (s.disguised d) = disguisedNext d (replyTransaction dev bytes shown s) :=
  finish_shown_disguised shown
    (busRead_disguised d dev bytes.length (s.withTurns (⟨none, none, .forced 0 bytes⟩ :: s.turns)))

theorem execSetksi_disguised (v : Byte) (s : State) :
    execSetksi v (s.disguised d) = disguisedNext d (execSetksi v s) := by
  refine whenAdmitted_disguised (finish_disguised ?_)
  exact BusRun.andThen_disguised (busWrite_disguised d _ _ s) fun _ t =>
    BusRun.andThen_disguised (busWrite_disguised d _ _ t) fun _ _ => rfl

theorem execSetkc_disguised (k : Byte) (c : Color) (s : State) :
    execSetkc k c (s.disguised d) = disguisedNext d (execSetkc k c s) := by
  refine whenAdmitted_disguised ?_
  cases keyOperand k with
  | none => rfl
  | some k => exact nextResult_disguised (setLedColor_disguised d _ _ c s) .none

theorem execSSetlc_disguised (h : Hand) (j : Byte) (c : Color) (s : State) :
    execSSetlc h j c (s.disguised d) = disguisedNext d (execSSetlc h j c s) := by
  refine whenAdmitted_disguised ?_
  cases indexOperand j with
  | none => rfl
  | some j => exact nextResult_disguised (setLedColor_disguised d h j c s) .none

theorem execSUpdled_disguised (h : Hand) (j : Byte) (c : Color) (s : State) :
    execSUpdled h j c (s.disguised d) = disguisedNext d (execSUpdled h j c s) := by
  refine whenAdmitted_disguised ?_
  cases indexOperand j with
  | none => rfl
  | some j => exact finish_shown_disguised _ (updateLed_disguised d h j c s)

variable {d}

/-- LEDPF shows the overcurrent input (10_state.md R25), so the disguise must show the same. -/
theorem execLedpf_disguised (hover : d.overcurrent = none) (s : State) :
    execLedpf (s.disguised d) = disguisedNext d (execLedpf s) := by
  have hpin : (s.disguised d).overcurrent = s.overcurrent := by simp [hover]
  refine whenAdmitted_disguised ?_
  rw [hpin]
  rfl

/-- Every instruction does the same on the disguised state, if the disguise shows the inputs' readers what they read. -/
theorem exec_disguised {i : Instr} (hms : i = .setup ∨ i = .updleds → d.msNow = none)
    (hover : i = .ledpf → d.overcurrent = none) (s : State) :
    exec i (s.disguised d) = disguisedNext d (exec i s) := by
  cases i with
  | setup => exact whenLive_disguised (finish_shown_disguised _ (setupBlock_disguised (hms (.inl rfl)) s))
  | scanm => exact whenAdmitted_disguised (finish_shown_disguised _ (scanMatrix_disguised d s))
  | updleds => exact whenAdmitted_disguised (finish_shown_disguised _ (updateLeds_disguised (hms (.inr rfl)) s))
  | setkc k c => exact execSetkc_disguised d k c s
  | setksi v => exact execSetksi_disguised d v s
  | ledpf => exact execLedpf_disguised (hover rfl) s
  | nextev | getkc | reboot | sGetlc => exact whenAdmitted_disguised (by rfl)
  | sRdkeys h => exact whenAdmitted_disguised (finish_shown_disguised _ (readKeys_disguised d h s))
  | sSetlc h j c => exact execSSetlc_disguised d h j c s
  | sUpdbank h => exact whenAdmitted_disguised (finish_shown_disguised _ (updateNextLedBank_disguised d h s))
  | sUpdled h j c => exact execSUpdled_disguised d h j c s
  | sUpdall h c => exact whenAdmitted_disguised (finish_shown_disguised _ (updateAllLeds_disguised d h c s))
  | sSetksi | sSetspi => exact whenAdmitted_disguised (finish_shown_disguised _ (busWrite_disguised d _ _ s))
  | sRdver h | sRdksi h | sRdspi h =>
    exact whenAdmitted_disguised (finish_shown_disguised _ (readRegister_disguised d h _ s))
  | ledSetOne dev | ledSetAll dev | ledBank dev | keyscanInterval dev | ledSpiFrequency dev | regselVersion dev
  | regselKsi dev | regselSpi dev => exact whenIssued_disguised (frameTransaction_disguised d dev _ s)
  | keydata dev | reg dev => exact whenIssued_disguised (replyTransaction_disguised d dev _ _ s)

end

/-! ## The statements of 10_state.md: inputs and history -/

/-- Settles O25: another level of one pin is a disguise, and only the pin's readers have to be shown the same. -/
theorem inputsAreReadOnlyByTheirReaders : Obligations.InputsAreReadOnlyByTheirReaders := by
  refine fun i s m b => ⟨fun hsetup hupdleds => ?_, fun hledpf => ?_⟩
  · exact exec_disguised (d := ⟨some m, none, []⟩) (fun hi => (hi.elim hsetup hupdleds).elim) (fun _ => rfl) s
  · exact exec_disguised (d := ⟨none, some b, []⟩) (fun _ => rfl) (fun hi => (hledpf hi).elim) s

/-- Settles O26: a longer past is a disguise, which every instruction keeps. -/
theorem noOperationReadsTheHistory : Obligations.NoOperationReadsTheHistory :=
  fun _ s past => exec_disguised (d := ⟨none, none, past⟩) (fun _ => rfl) (fun _ => rfl) s

end Sys2Proof.Machine
end

section
/-! # Scan words, key addresses and operand bytes

The bytes of a scan word by arithmetic (20_memory.md R45, R47), the three parts of a key address (30_encoding.md R90), the
bank and the slot of an LED (20_memory.md R41), and the checks of a bare frame's device and index. -/

namespace Sys2Proof.Machine

/-! ## Scan words (20_memory.md R45, R47) -/

theorem scanBank_toNat (d : Scan) (b : BitVec 2) : (scanBank d b).toNat = d.toNat / 2 ^ (8 * b.toNat) % 2 ^ 8 := by
  rw [scanBank, BitVec.extractLsb'_toNat, Nat.shiftRight_eq_div_pow]

theorem getLsbD_scanBank (d : Scan) (b : BitVec 2) {j : Nat} (hj : j < 8) :
    (scanBank d b).getLsbD j = d.getLsbD (8 * b.toNat + j) := by
  rw [scanBank, BitVec.getLsbD_extractLsb', decide_eq_true hj, Bool.true_and]

/-- Appending a word below another one adds it to the other's multiple. -/
theorem toNat_append_eq_add {m n : Nat} (x : BitVec m) (y : BitVec n) :
    (x ++ y).toNat = x.toNat * 2 ^ n + y.toNat := by
  rw [BitVec.toNat_append, ← Nat.shiftLeft_add_eq_or_of_lt y.isLt, Nat.shiftLeft_eq]

theorem scanOfBanks_toNat (b0 b1 b2 b3 : Byte) : (scanOfBanks b0 b1 b2 b3).toNat =
    b3.toNat * 2 ^ 24 + b2.toNat * 2 ^ 16 + b1.toNat * 2 ^ 8 + b0.toNat := by
  simp only [scanOfBanks, toNat_append_eq_add]
  omega

/-- Each byte of the word is the bank byte in its place. -/
theorem scanBank_scanOfBanks (b0 b1 b2 b3 : Byte) (b : BitVec 2) :
    scanBank (scanOfBanks b0 b1 b2 b3) b = #v[b0, b1, b2, b3][b.toNat]'(b.isLt) := by
  refine BitVec.eq_of_toNat_eq ?_
  rw [scanBank_toNat, scanOfBanks_toNat]
  have hb : b = 0 ∨ b = 1 ∨ b = 2 ∨ b = 3 := by decide +revert
  obtain rfl | rfl | rfl | rfl := hb <;> simp <;> omega

theorem keyDataOf_tagged (cfg : Config) (b0 b1 b2 b3 : Byte) :
    keyDataOf cfg (.ok [cfg.replyKeydata, b0, b1, b2, b3]) = some (scanOfBanks b0 b1 b2 b3) := if_pos rfl

theorem keyDataOf_wrongTag {cfg : Config} {t : Byte} (ht : t ≠ cfg.replyKeydata) (b0 b1 b2 b3 : Byte) :
    keyDataOf cfg (.ok [t, b0, b1, b2, b3]) = none := if_neg ht

theorem keyDataOf_err (cfg : Config) (st : Byte) : keyDataOf cfg (.err st) = none := rfl

/-! ## Key addresses (30_encoding.md R90) -/

/-- A key's bit of its hand's word is the bit of its slot in its bank. -/
theorem keyIndex_toNat (k : BitVec 6) :
    (k.extractLsb' 0 5).toNat = 8 * (keyBank k).toNat + (keyBitpos k).toNat := by
  simp only [keyBank, keyBitpos, BitVec.extractLsb'_toNat, Nat.shiftRight_eq_div_pow]
  omega

theorem handBit_handOfBit (b : Bool) : handBit (handOfBit b) = BitVec.ofBool b := by cases b <;> rfl

theorem assembleKey_parts (k : BitVec 6) : assembleKey (keyHand k) (keyBank k) (keyBitpos k) = k := by
  rw [assembleKey, keyHand, handBit_handOfBit, keyBank, keyBitpos]
  decide +revert +kernel

/-! ## LED banks and slots (20_memory.md R41) -/

theorem ledBankOf_toNat (i : BitVec 5) : (ledBankOf i).toNat = i.toNat / 8 := by
  rw [ledBankOf, BitVec.extractLsb'_toNat, Nat.shiftRight_eq_div_pow]
  omega

theorem ledSlotOf_toNat (i : BitVec 5) : (ledSlotOf i).toNat = i.toNat % 8 := by
  rw [ledSlotOf, BitVec.extractLsb'_toNat, Nat.shiftRight_eq_div_pow, Nat.pow_zero, Nat.div_one]

/-- Reading any LED after the eight writes of a bank frame (20_memory.md R63). -/
theorem ledAt_writeBank (leds : Vector Bgr 32) (n : BitVec 2) (ws : Vector Bgr 8) (i : BitVec 5) :
    ledAt (writeBank leds n ws) i =
      if i.toNat / 8 = n.toNat then ws[i.toNat % 8]'(Nat.mod_lt _ (by decide)) else ledAt leds i := by
  have hbank : (i.toNat / 8 = n.toNat) = (ledBankOf i = n) := by rw [← ledBankOf_toNat, BitVec.toNat_inj]
  simp only [hbank]
  split
  · rename_i hn
    have hslot := ledAt_writeBank_slot leds n ws (ledSlotOf i)
    rw [← hn, bankLed_ledBankOf] at hslot
    rw [← hn, hslot]
    simp only [ledSlotOf_toNat]
  · exact ledAt_writeBank_other leds ws ‹_›

/-! ## The device and the index of a bare frame (20_memory.md R43, 30_encoding.md R81) -/

theorem deviceOk_iff (cfg : Config) (dev : BitVec 7) :
    deviceOk cfg dev = true ↔ dev = devAddr cfg .left ∨ dev = devAddr cfg .right := by
  simp [deviceOk, devAddr]

theorem indexByteOk_iff (index : Byte) : indexByteOk index = true ↔ index.toNat < 32 := by
  unfold indexByteOk
  decide +revert +kernel

end Sys2Proof.Machine
end

section
/-! # Bare frames

The decoder reads back every frame that the encoder writes, since the command bytes of a well-formed configuration differ
(00_scope.md R4 a), and each frame, taken as an instruction, is one write transaction of its encoding. -/

namespace Sys2Proof

/-- The command bytes that frames of one and two bytes are told by differ (00_scope.md R4 a). -/
theorem selectCommands_differ {cfg : Config} (hc : configOk cfg = true) :
    cfg.cmdVersion ≠ cfg.cmdKeyscanInterval ∧ cfg.cmdVersion ≠ cfg.cmdLedSpiFrequency ∧
      cfg.cmdKeyscanInterval ≠ cfg.cmdLedSpiFrequency := by
  obtain ⟨hcommands, -⟩ := (configOk_iff cfg).mp hc
  obtain ⟨hnodup, -⟩ := (commandsOk_iff cfg).mp hcommands
  simp only [List.nodup_cons, List.mem_cons, not_or] at hnodup
  obtain ⟨⟨hksi, -, -, hspi, -⟩, ⟨-, -, hspi', -⟩, -⟩ := hnodup
  exact ⟨hksi, hspi, hspi'⟩

/-- Two banks have different command bytes (30_encoding.md R92). -/
theorem bankCommand_inj {cfg : Config} {n m : BitVec 2} : bankCommand cfg n = bankCommand cfg m ↔ n = m := by
  rw [bankCommand, bankCommand, BitVec.add_right_inj]
  decide +revert

theorem decodeBankFrame_bankCommand (cfg : Config) (dev : BitVec 7) (n : BitVec 2) (ws : Vector Bgr 8) :
    decodeBankFrame cfg dev (bankCommand cfg n) ws = .ok (.ledBank dev n ws) := by
  simp only [decodeBankFrame, bankCommand_inj]
  have hn : n = 0 ∨ n = 1 ∨ n = 2 ∨ n = 3 := by decide +revert
  obtain rfl | rfl | rfl | rfl := hn <;> rfl

theorem decodeFrame_ledBankFrame (cfg : Config) (dev : BitVec 7) (n : BitVec 2) (ws : Vector Bgr 8) :
    decodeFrame cfg dev (ledBankFrame cfg n ws) = .ok (.ledBank dev n ws) := by
  obtain ⟨⟨l⟩, hl⟩ := ws
  match l, hl with
  | [_, _, _, _, _, _, _, _], _ => exact decodeBankFrame_bankCommand cfg dev n _

/-- The decoder reads every frame as what it was written for (30_encoding.md R88, R99). -/
theorem decodeFrame_of_frame {cfg : Config} {i : Instr} {dev : BitVec 7} {bytes : List Byte}
    (hc : configOk cfg = true) (hi : encode cfg i = .busWrite dev bytes) : decodeFrame cfg dev bytes = .ok i := by
  obtain ⟨hksi, hspi, hspi'⟩ := selectCommands_differ hc
  cases i <;> cases hi
  case ledBank n ws => exact decodeFrame_ledBankFrame cfg _ n ws
  case ledSetOne => exact if_pos rfl
  case ledSetAll => exact if_pos rfl
  case keyscanInterval => exact if_pos rfl
  case regselVersion => exact if_pos rfl
  case ledSpiFrequency => exact (if_neg hspi'.symm).trans (if_pos rfl)
  case regselKsi => exact (if_neg hksi.symm).trans (if_pos rfl)
  case regselSpi => exact (if_neg hspi.symm).trans ((if_neg hspi'.symm).trans (if_pos rfl))

namespace Machine

section
variable {i : Instr} {s : State} {dev : BitVec 7} {bytes : List Byte}

/-- A frame as an instruction is one write transaction of its bytes (20_memory.md R51; assumption log 9). -/
theorem exec_of_frame (hi : encode s.cfg i = .busWrite dev bytes) :
    exec i s = whenIssued i s (frameTransaction dev bytes s) := by
  cases i <;> cases hi <;> rfl

/-- A frame is well formed when its device is one of the two and its LED index, where it has one, is valid. -/
theorem wellFormed_of_frame {cfg : Config} (hi : encode cfg i = .busWrite dev bytes) (hdev : deviceOk cfg dev = true)
    (hindex : ∀ index w, i = .ledSetOne dev index w → indexByteOk index = true) : i.wellFormed cfg = true := by
  cases i <;> cases hi
  case ledSetOne index w => exact Bool.and_eq_true_iff.mpr ⟨hdev, hindex index w rfl⟩
  all_goals exact hdev

theorem illFormed_of_frame {cfg : Config} (hi : encode cfg i = .busWrite dev bytes) (hdev : deviceOk cfg dev = false) :
    i.wellFormed cfg = false := by
  cases i <;> cases hi
  case ledSetOne => exact Bool.and_eq_false_iff.mpr (.inl hdev)
  all_goals exact hdev

/-- An answered write returns, with the status the environment gives where it gives one (20_memory.md R51, R58). -/
theorem busWrite_returns_forced (dev : BitVec 7) (bytes : List Byte) (ha : s.Answered 1) :
    ∃ st t, busWrite dev bytes s = .returned st t ∧ AfterTransaction s t (.write dev bytes st) ∧
      ∀ f, s.forcedStatus 0 = some f → st = f := by
  obtain ⟨st, t, hrun, ht⟩ := busWrite_returns dev bytes ha
  refine ⟨st, t, hrun, ht, fun f hf => ?_⟩
  obtain ⟨u, hforced, -⟩ := busWrite_forced dev bytes hf
  cases hrun.symm.trans hforced
  rfl

/-- A bare frame that is answered shows the raw status and changes no register of the block. -/
theorem frameTransaction_returns (dev : BitVec 7) (bytes : List Byte) (ha : s.Answered 1) :
    ∃ t st, frameTransaction dev bytes s = .next t ∧ t.result = .status st ∧ SameBlock s t ∧
      (∀ f, s.forcedStatus 0 = some f → st = f) ∧ t.busLog = s.busLog ++ [.write dev bytes st] := by
  obtain ⟨st, t, hrun, ht, hforced⟩ := busWrite_returns_forced dev bytes ha
  refine ⟨t.withResult (.status st), st, ?_, rfl, ht.block.trans (by constructor <;> rfl), hforced, ht.busLog⟩
  rw [frameTransaction, hrun, BusRun.returned_andThen, finish_returned]

end

end Machine

end Sys2Proof
end

section
/-! # The reference responder

With nothing scripted, a transaction to a hand's device is answered by that hand's peripheral (20_memory.md R60 to R67):
one equation per primitive, then what a healthy peripheral makes of a frame, of a key read and of a register read. -/

namespace Sys2Proof.Machine

/-! ## The device that is addressed (30_encoding.md R93) -/

theorem devAddr_left_ne_right {cfg : Config} (hc : configOk cfg = true) : devAddr cfg .left ≠ devAddr cfg .right := by
  obtain ⟨-, haddresses, -⟩ := (configOk_iff cfg).mp hc
  obtain ⟨hdisjoint, hsel⟩ := (addressesOk_iff cfg).mp haddresses
  intro heq
  refine hsel ?_
  calc cfg.rightSel = (cfg.busAddrBase ||| cfg.rightSel) &&& cfg.rightSel := by
        ext j hj
        rw [BitVec.getElem_and, BitVec.getElem_or, Bool.and_comm, Bool.or_comm]
        exact inf_sup_self.symm
    _ = cfg.busAddrBase &&& cfg.rightSel := congrArg (· &&& cfg.rightSel) heq.symm
    _ = 0 := hdisjoint

theorem handOfDev_of_ok {cfg : Config} (hc : configOk cfg = true) (h : Hand) :
    handOfDev cfg (devAddr cfg h) = some h := handOfDev_devAddr (devAddr_left_ne_right hc) h

/-! ## One hand's peripheral replaced -/

@[simp] theorem State.withPeripheral_periph (s : State) (h : Hand) (p : Periph) :
    (s.withPeripheral h p).periph = s.periph.set h p := rfl

@[simp] theorem State.withPeripheral_turns (s : State) (h : Hand) (p : Periph) :
    (s.withPeripheral h p).turns = s.turns := rfl

/-- A peripheral that is as it was has changed nothing. -/
@[simp] theorem State.withPeripheral_self (s : State) (h : Hand) : s.withPeripheral h (s.periph.get h) = s := by
  rw [State.withPeripheral, Pair.set_get, State.withPeriph]

section
variable {s : State} {h : Hand}

/-! ## The two primitives answered by the responder -/

theorem respondWrite_devAddr (hc : configOk s.cfg = true) (h : Hand) (bytes : List Byte) :
    respondWrite (devAddr s.cfg h) bytes s =
      (((s.periph.get h).takeWrite s.cfg (devAddr s.cfg h) bytes).1,
        s.withPeripheral h ((s.periph.get h).takeWrite s.cfg (devAddr s.cfg h) bytes).2) := by
  simp only [respondWrite, handOfDev_of_ok hc h]

theorem respondRead_devAddr (hc : configOk s.cfg = true) (h : Hand) (n : Nat) :
    respondRead (devAddr s.cfg h) n s =
      (((s.periph.get h).takeRead s.cfg n).1, s.withPeripheral h ((s.periph.get h).takeRead s.cfg n).2) := by
  simp only [respondRead, handOfDev_of_ok hc h]

theorem takeTurn_unscripted (hu : s.Unscripted) : takeTurn s = (.responder, s) := by
  have hturns : s.turns = [] := hu
  simp only [takeTurn, hturns]

theorem busWrite_unscripted (hu : s.Unscripted) (dev : BitVec 7) (bytes : List Byte) :
    busWrite dev bytes s = writeReturned dev bytes (respondWrite dev bytes s) := by
  rw [busWrite, takeTurn_unscripted hu]

theorem busRead_unscripted (hu : s.Unscripted) (dev : BitVec 7) (n : Nat) :
    busRead dev n s = readReturned dev n (respondRead dev n s) := by
  rw [busRead, takeTurn_unscripted hu]

/-! ## A failing peripheral (20_memory.md R67) -/

theorem respondWrite_fail (hc : configOk s.cfg = true) (hf : (s.periph.get h).fail = true) (bytes : List Byte) :
    respondWrite (devAddr s.cfg h) bytes s = (2, s) := by
  rw [respondWrite_devAddr hc, takeWrite_fail _ _ _ hf, State.withPeripheral_self]

theorem respondRead_fail (hc : configOk s.cfg = true) (hf : (s.periph.get h).fail = true) (n : Nat) :
    respondRead (devAddr s.cfg h) n s = (.err 2, s) := by
  rw [respondRead_devAddr hc, takeRead_fail _ _ hf, State.withPeripheral_self]

theorem busWrite_fail (hc : configOk s.cfg = true) (hu : s.Unscripted) (hf : (s.periph.get h).fail = true)
    (bytes : List Byte) : busWrite (devAddr s.cfg h) bytes s =
      .returned 2 (s.logged (.write (devAddr s.cfg h) bytes 2)) := by
  rw [busWrite_unscripted hu, respondWrite_fail hc hf, writeReturned]

theorem readKeys_fail (hc : configOk s.cfg = true) (hu : s.Unscripted) (hf : (s.periph.get h).fail = true) :
    readKeys h s = .returned none (s.logged (.read (devAddr s.cfg h) 5 (.err 2))) := by
  rw [readKeys, busRead_unscripted hu, respondRead_fail hc hf, readReturned, BusRun.returned_andThen, keyDataOf_err]

/-! ## A healthy peripheral takes a frame (20_memory.md R61 to R65) -/

theorem busWrite_of_frame {i : Instr} {bytes : List Byte} (hc : configOk s.cfg = true) (hu : s.Unscripted)
    (hf : (s.periph.get h).fail = false) (hi : encode s.cfg i = .busWrite (devAddr s.cfg h) bytes) :
    busWrite (devAddr s.cfg h) bytes s = .returned 0
      ((s.withPeripheral h (receiveFrame (s.periph.get h) i)).logged (.write (devAddr s.cfg h) bytes 0)) := by
  rw [busWrite_unscripted hu, respondWrite_devAddr hc, takeWrite_frame hf (decodeFrame_of_frame hc hi), writeReturned]

/-- A well-formed frame to a healthy hand is delivered to its peripheral and answered with status 0. -/
theorem exec_frame_delivered {i : Instr} {bytes : List Byte} (hr : s.Ready) (hu : s.Unscripted)
    (hf : (s.periph.get h).fail = false) (hi : encode s.cfg i = .busWrite (devAddr s.cfg h) bytes)
    (hindex : ∀ index w, i = .ledSetOne (devAddr s.cfg h) index w → indexByteOk index = true) :
    exec i s = .next (((s.withPeripheral h (receiveFrame (s.periph.get h) i)).logged
      (.write (devAddr s.cfg h) bytes 0)).withResult (.status 0)) := by
  rw [exec_of_frame hi, whenIssued_of_wellFormed hr (wellFormed_of_frame hi (deviceOk_devAddr _ h) hindex),
    frameTransaction, busWrite_of_frame hr.1.1 hu hf hi, BusRun.returned_andThen, finish_returned]

/-- LED_SET_ONE names the LED by its whole index byte (20_memory.md R61). -/
theorem receiveFrame_ledSetOne (p : Periph) (dev : BitVec 7) (i : BitVec 5) (w : Bgr) :
    receiveFrame p (.ledSetOne dev (i.setWidth 8) w) = { p with leds := setLed p.leds i w } := by
  simp only [receiveFrame, indexOperand_setWidth]

theorem receiveFrame_ledSetOne_invalid (p : Periph) (dev : BitVec 7) {index : Byte} (w : Bgr)
    (hindex : 32 ≤ index.toNat) : receiveFrame p (.ledSetOne dev index w) = p := by
  simp only [receiveFrame, indexOperand_none hindex]

/-- No frame makes a peripheral fail or recover. -/
@[simp] theorem receiveFrame_fail (p : Periph) (i : Instr) : (receiveFrame p i).fail = p.fail := by
  cases i with
  | ledSetOne dev index w =>
    cases hi : indexOperand index <;> simp only [receiveFrame, hi]
  | _ => rfl

/-! ## Reads from a healthy peripheral (20_memory.md R66) -/

theorem takeRead_keys (cfg : Config) {p : Periph} (hf : p.fail = false) (hsel : p.sel = .none) :
    p.takeRead cfg 5 = (.ok (p.keydataBytes cfg), p) := by
  have hnone : p.selectedByte = none := by rw [Periph.selectedByte, hsel]
  rw [Periph.takeRead, hf, if_neg Bool.false_ne_true, hnone]
  rfl

theorem takeRead_selected (cfg : Config) {p : Periph} {v : Byte} (hf : p.fail = false)
    (hv : p.selectedByte = some v) : p.takeRead cfg 1 = (.ok [v], { p with sel := .none }) := by
  rw [Periph.takeRead, hf, if_neg Bool.false_ne_true, hv]
  rfl

/-- The key-data reply carries the debounced key state. -/
theorem keyDataOf_keydataBytes (cfg : Config) (p : Periph) : keyDataOf cfg (.ok (p.keydataBytes cfg)) = some p.keys := by
  rw [Periph.keydataBytes, keydataReply, keyDataOf_tagged, scanOfBanks_scanBank]

/-- A key read of a healthy hand with no register selected delivers its key state and changes nothing but the history. -/
theorem readKeys_delivers (hc : configOk s.cfg = true) (hu : s.Unscripted) (hf : (s.periph.get h).fail = false)
    (hsel : (s.periph.get h).sel = .none) : readKeys h s = .returned (some (s.periph.get h).keys)
      (s.logged (.read (devAddr s.cfg h) 5 (.ok ((s.periph.get h).keydataBytes s.cfg)))) := by
  rw [readKeys, busRead_unscripted hu, respondRead_devAddr hc, takeRead_keys _ hf hsel, State.withPeripheral_self,
    readReturned, BusRun.returned_andThen, keyDataOf_keydataBytes]

/-- A register read of a healthy hand: the select frame is taken, its register's byte is read, the selection is spent. -/
theorem readRegister_delivers {i : Instr} {sel v : Byte} (hc : configOk s.cfg = true) (hu : s.Unscripted)
    (hf : (s.periph.get h).fail = false) (hi : encode s.cfg i = .busWrite (devAddr s.cfg h) [sel])
    (hv : (receiveFrame (s.periph.get h) i).selectedByte = some v) :
    ∃ t, readRegister h sel s = .returned (some v) t ∧ (t.periph.get h).sel = .none := by
  have hread (t : State) (htc : t.cfg = s.cfg) (htu : t.Unscripted)
      (htp : t.periph.get h = receiveFrame (s.periph.get h) i) :
      busRead (devAddr s.cfg h) 1 t = .returned (.ok [v]) ((t.withPeripheral h
        { t.periph.get h with sel := .none }).logged (.read (devAddr s.cfg h) 1 (.ok [v]))) := by
    rw [← htp] at hv
    have htf : (t.periph.get h).fail = false := by rw [htp, receiveFrame_fail, hf]
    rw [busRead_unscripted htu, ← htc, respondRead_devAddr (htc ▸ hc), takeRead_selected _ htf hv, readReturned]
  rw [readRegister, busWrite_of_frame hc hu hf hi, BusRun.returned_andThen, if_pos (by rfl), hread]
  · exact ⟨_, rfl, by simp⟩
  · rfl
  · exact hu
  · simp

/-! ## Register operations on a healthy hand -/

/-- Reading a register back: the hand's peripheral holds the byte in the register that the select frame names. -/
theorem register_read_back {i : Instr} {sel v : Byte} (hr : s.Ready) (hu : s.Unscripted)
    (hf : (s.periph.get h).fail = false) (hi : encode s.cfg i = .busWrite (devAddr s.cfg h) [sel])
    (hv : (receiveFrame (s.periph.get h) i).selectedByte = some v) :
    ∃ t, whenAdmitted s (finish ((readRegister h sel s).andThen fun v s1 => .returned (.optByte v) s1)) = .next t ∧
      t.result = .optByte (some v) ∧ (t.periph.get h).sel = .none := by
  obtain ⟨t, hrun, hsel⟩ := readRegister_delivers hr.1.1 hu hf hi hv
  exact ⟨t.withResult (.optByte (some v)), by rw [whenAdmitted_of_ready hr, hrun]; rfl, rfl, hsel⟩

/-- S.SETKSI and S.SETSPI on a healthy hand: the configuration frame is taken and answered with status 0. -/
theorem register_written {i : Instr} {bytes : List Byte} (hr : s.Ready) (hu : s.Unscripted)
    (hf : (s.periph.get h).fail = false) (hi : encode s.cfg i = .busWrite (devAddr s.cfg h) bytes) :
    ∃ t, whenAdmitted s (finish ((busWrite (devAddr s.cfg h) bytes s).andThen fun st s1 =>
        .returned (.status st) s1)) = .next t ∧ t.Ready ∧ t.Unscripted ∧
      t.periph.get h = receiveFrame (s.periph.get h) i := by
  rw [whenAdmitted_of_ready hr, busWrite_of_frame hr.1.1 hu hf hi]
  exact ⟨_, rfl, hr, hu, by simp⟩

end

end Sys2Proof.Machine
end

section
/-! # Flush steps

Under the reference responder no flush hangs; each leaves the block ready and the frame buffer as it is (property S5 of
95_test_vectors.md). -/

namespace Sys2Proof.Machine

section
variable {α β : Type} {s : State}

/-! ## Runs that complete -/

/-- The run from `s` returns, with nothing scripted and the stuck bit as it was. -/
def BusRun.Completes (s : State) : BusRun α → Prop
  | .returned _ t => t.Unscripted ∧ t.hung = s.hung
  | .hung _ => False

theorem BusRun.Completes.andThen {m : BusRun α} {k : α → State → BusRun β} (hm : m.Completes s)
    (hk : ∀ a t, t.Unscripted → (k a t).Completes t) : (m.andThen k).Completes s := by
  cases m with
  | hung t => exact hm.elim
  | returned a t =>
    obtain ⟨hu, hhung⟩ := hm
    have hkt := hk a t hu
    rw [returned_andThen]
    generalize k a t = m' at hkt
    cases m' with
    | hung u => exact hkt.elim
    | returned b u => exact ⟨hkt.1, hkt.2.trans hhung⟩

theorem busWrite_completes (hu : s.Unscripted) (dev : BitVec 7) (bytes : List Byte) :
    (busWrite dev bytes s).Completes s := by
  obtain ⟨hb, -, -, ht⟩ := respondWrite_keeps dev bytes s
  rw [busWrite_unscripted hu]
  exact ⟨ht.trans hu, hb.hung⟩

theorem updateNextLedBank_completes (hu : s.Unscripted) (h : Hand) : (updateNextLedBank h s).Completes s := by
  have hu' : (advanceCursor h s).Unscripted := hu
  unfold updateNextLedBank flushSelected
  split
  · exact (busWrite_completes hu' _ _).andThen fun _ t ht => ⟨ht, rfl⟩
  · exact ⟨hu, rfl⟩

theorem updateLeds_completes (hu : s.Unscripted) : (updateLeds s).Completes s := by
  unfold updateLeds
  split
  · exact (updateNextLedBank_completes (s := s.withLastFlush (timeSample s.cfg s.msNow)) hu .left).andThen fun _ t ht =>
      updateNextLedBank_completes ht .right
  · exact ⟨hu, rfl⟩

theorem finish_shown_completes {m : BusRun α} (shown : α → Result) (hm : m.Completes s) :
    ∃ t, finish (m.andThen fun a t => .returned (shown a) t) = .next t ∧ t.Unscripted ∧ t.hung = s.hung := by
  cases m with
  | hung t => exact hm.elim
  | returned a t => exact ⟨t.withResult (shown a), rfl, hm⟩

end

/-! ## One flush step, and any number of them -/

/-- A state that flush steps from `s` may lead to: every operation is admitted, the reference responders answer, and the
frame buffer is as it was. -/
structure FlushedFrom (s t : State) : Prop where
  ready : t.Ready
  unscripted : t.Unscripted
  fb : t.fb = s.fb
  cfg : t.cfg = s.cfg

theorem FlushedFrom.trans {s t u : State} (h : FlushedFrom s t) (k : FlushedFrom t u) : FlushedFrom s u :=
  ⟨k.ready, k.unscripted, k.fb.trans h.fb, k.cfg.trans h.cfg⟩

/-- The flush instructions answer, with nothing hung. -/
theorem exec_flush_completes {j : Instr} (hj : isFlush j = true) {s : State} (hr : s.Ready) (hu : s.Unscripted) :
    ∃ t, exec j s = .next t ∧ t.Unscripted ∧ t.hung = s.hung := by
  cases j <;> cases hj
  case sUpdbank h =>
    change ∃ t, execSUpdbank h s = _ ∧ _
    rw [execSUpdbank, whenAdmitted_of_ready hr]
    exact finish_shown_completes _ (updateNextLedBank_completes hu h)
  case updleds =>
    change ∃ t, execUpdleds s = _ ∧ _
    rw [execUpdleds, whenAdmitted_of_ready hr]
    exact finish_shown_completes _ (updateLeds_completes hu)

/-- A flush step writes only time stamp, cursors and dirty bits (10_state.md R10), so it leaves the frame buffer alone. -/
theorem exec_flush {j : Instr} (hj : isFlush j = true) {s : State} (hr : s.Ready) (hu : s.Unscripted) :
    ∃ t, exec j s = .next t ∧ FlushedFrom s t := by
  obtain ⟨t, hexec, hut, hhung⟩ := exec_flush_completes hj hr hu
  have hkeeps (r : Register) (hw : ¬ r.WrittenBy j) : r.get t = r.get s := exec_writes_only_its_registers hexec hw
  have hcfg : t.cfg = s.cfg := exec_keeps_cfg j s t hexec
  have hinit : t.initialized = s.initialized := hkeeps .initialized (by rintro rfl; cases hj)
  have hhalted : t.halted = s.halted := hkeeps .halted (by rintro rfl; cases hj)
  have hfb : t.fb = s.fb := by
    refine hkeeps .fb ?_
    rintro (⟨_, _, _, rfl⟩ | ⟨_, _, _, rfl⟩ | ⟨_, _, rfl⟩ | ⟨_, _, rfl⟩ | rfl) <;> cases hj
  obtain ⟨⟨hok, hhung', hhalted'⟩, hinit'⟩ := hr
  exact ⟨t, hexec, ⟨⟨hcfg ▸ hok, hhung.trans hhung', hhalted.trans hhalted'⟩, hinit.trans hinit'⟩, hut, hfb, hcfg⟩

theorem execAll_cons {i : Instr} {s t : State} (h : exec i s = .next t) (rest : List Instr) :
    execAll (i :: rest) s = execAll rest t := by
  rw [execAll, h]

theorem execAll_flushes (rest : List Instr) {flushes : List Instr} (hflush : ∀ j ∈ flushes, isFlush j = true)
    {s : State} (hr : s.Ready) (hu : s.Unscripted) :
    ∃ t, execAll (flushes ++ rest) s = execAll rest t ∧ FlushedFrom s t := by
  induction flushes generalizing s with
  | nil => exact ⟨s, rfl, hr, hu, rfl, rfl⟩
  | cons j flushes ih =>
    obtain ⟨t, hexec, ht⟩ := exec_flush (hflush j List.mem_cons_self) hr hu
    obtain ⟨u, hrun, hfrom⟩ := ih (fun k hk => hflush k (List.mem_cons_of_mem j hk)) ht.ready ht.unscripted
    exact ⟨u, by rw [List.cons_append, execAll_cons hexec, hrun], ht.trans hfrom⟩

/-! ## A flush step on a failing hand -/

/-- A flush step whose selected bank is dirty, on a failing hand: the frame is sent, answered with status 2, and the bank's
bit is cleared (42_led_sync.md R162, R177). -/
theorem updateNextLedBank_fail {s : State} {h : Hand} {n : BitVec 2} (hc : configOk s.cfg = true) (hu : s.Unscripted)
    (hf : (s.periph.get h).fail = true) (hn : n = s.cursor.get h + 1) (hdirty : isDirty (s.dirty.get h) n = true) :
    updateNextLedBank h s = .returned () (cleanBank h n
      ((advanceCursor h s).logged (.write (devAddr s.cfg h) (bankFrameNow h n s) 2))) := by
  have hcursor : (advanceCursor h s).cursor.get h = n := by simp [advanceCursor, hn]
  have hselected : isDirty ((advanceCursor h s).dirty.get h) n = true := hdirty
  rw [updateNextLedBank, flushSelected, hcursor, if_pos hselected,
    busWrite_fail (s := advanceCursor h s) hc hu hf, BusRun.returned_andThen]
  rfl

/-! ## Colours set and got (42_led_sync.md R160, R161) -/

theorem setLedColor_of_stored {h : Hand} {i : BitVec 5} {c : Color} {s : State}
    (hc : ledAt (s.fb.get h) i = quantise s.cfg c) : setLedColor h i c s = s := if_pos hc

/-- The entry holds the colour's stored form, whether it was written or held it before. -/
theorem getLedColor_setLedColor (h : Hand) (i : BitVec 5) (c : Color) (s : State) :
    getLedColor h i (setLedColor h i c s) = quantise s.cfg c := by
  unfold getLedColor setLedColor
  split
  · assumption
  · rw [State.withDirty_fb, storeLed, State.withFb_fb, Pair.get_set_same, ledAt_setLed, if_pos rfl]

/-- The frame buffer and the dirty bits are no part of what admits an operation or answers a transaction. -/
theorem setLedColor_ready {h : Hand} {i : BitVec 5} {c : Color} {s : State} (hr : s.Ready) (hu : s.Unscripted) :
    (setLedColor h i c s).Ready ∧ (setLedColor h i c s).Unscripted := by
  unfold setLedColor
  split <;> exact ⟨hr, hu⟩

theorem exec_sSetlc_of_ready {s : State} (hr : s.Ready) (h : Hand) (i : BitVec 5) (c : Color) :
    exec (.sSetlc h (i.setWidth 8) c) s = .next ((setLedColor h i c s).withResult .none) := by
  change execSSetlc h (i.setWidth 8) c s = _
  rw [execSSetlc, whenAdmitted_of_ready hr, indexOperand_setWidth]

theorem exec_sGetlc_of_ready {s : State} (hr : s.Ready) (h : Hand) (i : BitVec 5) :
    exec (.sGetlc h (i.setWidth 8)) s = .next (s.withResult (.optColor (some (getLedColor h i s)))) := by
  change execSGetlc h (i.setWidth 8) s = _
  rw [execSGetlc, whenAdmitted_of_ready hr, indexOperand_setWidth]
  rfl

theorem quantise_rgb888 {cfg : Config} (hmode : cfg.colorMode = .rgb888) (c : Color) : quantise cfg c = c := by
  rw [quantise, hmode]

end Sys2Proof.Machine
end

section
/-! # The statements of 20_memory.md: scan words, key reads, colours -/

namespace Sys2Proof.Machine

/-- Settles O11: the key's place in the word is eight times its bank and its place in the bank. -/
theorem keybitIsTheBitOfItsBank : Obligations.KeybitIsTheBitOfItsBank := fun p k => by
  have hword : keybit p k = (p.get (keyHand k)).getLsbD (8 * (keyBank k).toNat + (keyBitpos k).toNat) := by
    rw [keybit, keyIndex_toNat]
  exact ⟨by rw [hword, getLsbD_scanBank _ _ (keyBitpos k).isLt], hword, assembleKey_parts k⟩

/-- Settles O12: with the tag the reply is the word of its four bytes, and each is read back from its bank. -/
theorem keyReplyIsReadByItsTag : Obligations.KeyReplyIsReadByItsTag := fun cfg t b0 b1 b2 b3 st => by
  refine ⟨fun ht => keyDataOf_wrongTag ht b0 b1 b2 b3, keyDataOf_err cfg st, ?_⟩
  rintro rfl
  have hbank := scanBank_scanOfBanks b0 b1 b2 b3
  exact ⟨scanOfBanks b0 b1 b2 b3, keyDataOf_tagged cfg b0 b1 b2 b3, hbank 0, hbank 1, hbank 2, hbank 3,
    scanOfBanks_toNat b0 b1 b2 b3⟩

/-- Settles O33: each key read delivers its hand's key state and leaves the peripherals as they are. -/
theorem healthyScanDeliversTheKeys : Obligations.HealthyScanDeliversTheKeys := fun s hr hu hperiph => by
  obtain ⟨hleft, hleftSel⟩ := hperiph .left
  obtain ⟨hright, hrightSel⟩ := hperiph .right
  have hok : configOk s.cfg = true := hr.1.1
  change ∃ t, execScanm s = .next t ∧ _
  rw [execScanm, whenAdmitted_of_ready hr, scanMatrix,
    readKeys_delivers (s := s.withPrevScan s.currScan) hok hu hleft hleftSel, BusRun.returned_andThen, storeScan,
    readKeys_delivers (h := .right) ?cfg ?turns ?healthy ?unselected]
  case cfg => exact hok
  case turns => exact hu
  case healthy => exact hright
  case unselected => exact hrightSel
  exact ⟨_, rfl, rfl, rfl, rfl, rfl⟩

/-- Settles O48: the set leaves the stored form in the entry, the flush steps keep the frame buffer, the get reads it. -/
theorem frameBufferIsReadYourWrites : Obligations.FrameBufferIsReadYourWrites := fun s h i c flushes hr hu hflush => by
  obtain ⟨hset, husett⟩ := setLedColor_ready (h := h) (i := i) (c := c) hr hu
  obtain ⟨t, hrun, ht⟩ := execAll_flushes [.sGetlc h (i.setWidth 8)] hflush
    (s := (setLedColor h i c s).withResult .none) hset husett
  have hentry : getLedColor h i t = quantise s.cfg c := by
    rw [← getLedColor_setLedColor h i c s, getLedColor, ht.fb, getLedColor, State.withResult_fb]
  refine ⟨t.withResult (.optColor (some (quantise s.cfg c))), ?_, rfl, fun hmode => ?_⟩
  · rw [execAll_cons (exec_sSetlc_of_ready hr h i c), hrun, execAll_cons (exec_sGetlc_of_ready ht.ready h i), hentry]
    rfl
  · rw [quantise_rgb888 hmode, State.withResult_result]

end Sys2Proof.Machine
end

section
/-! # The statements of 20_memory.md: frames and the reference responder -/

namespace Sys2Proof.Machine

/-- Settles O42: the configuration frame writes the register, the select frame names it, and the read takes its byte and
spends the selection. -/
theorem writtenRegistersAreReadBack : Obligations.WrittenRegistersAreReadBack := fun s h v hr hu hf => by
  refine ⟨?_, ?_, ?_⟩
  · obtain ⟨t, hset, hrt, hut, hp⟩ := register_written (i := .keyscanInterval (devAddr s.cfg h) v) hr hu hf rfl
    obtain ⟨u, hread, hresult, hsel⟩ := register_read_back (i := .regselKsi (devAddr t.cfg h)) (v := v) hrt hut
      (by rw [hp, receiveFrame_fail, hf]) rfl (by rw [hp]; rfl)
    exact ⟨u, (execAll_cons (i := .sSetksi h v) hset _).trans (execAll_cons (i := .sRdksi h) hread []), hresult, hsel⟩
  · obtain ⟨t, hset, hrt, hut, hp⟩ := register_written (i := .ledSpiFrequency (devAddr s.cfg h) v) hr hu hf rfl
    obtain ⟨u, hread, hresult, hsel⟩ := register_read_back (i := .regselSpi (devAddr t.cfg h)) (v := v) hrt hut
      (by rw [hp, receiveFrame_fail, hf]) rfl (by rw [hp]; rfl)
    exact ⟨u, (execAll_cons (i := .sSetspi h v) hset _).trans (execAll_cons (i := .sRdspi h) hread []), hresult, hsel⟩
  · exact register_read_back (i := .regselVersion (devAddr s.cfg h)) hr hu hf rfl rfl

/-- Settles O56: each frame as an instruction is the transaction of its encoding, admitted as R240 says and issued when it is
well formed. -/
theorem writeFramesAreOneTransaction : Obligations.WriteFramesAreOneTransaction :=
  fun s dev index v w n ws hl => by
  refine ⟨fun frame hmem => ?_, fun hinit hindex => ?_⟩
  · have hframe : encode s.cfg frame.1 = .busWrite dev frame.2 ∧
        ∀ index' w', frame.1 = .ledSetOne dev index' w' → index' = index := by
      simp only [List.mem_cons, List.not_mem_nil, or_false] at hmem
      rcases hmem with rfl | rfl | rfl | rfl | rfl | rfl | rfl | rfl <;>
        exact ⟨rfl, fun _ _ hi => by cases hi <;> rfl⟩
    obtain ⟨hi, hindexOf⟩ := hframe
    rw [exec_of_frame hi]
    refine ⟨fun hinit => whenIssued_of_uninitialised hl hinit _, fun hinit hdev hindex ha => ?_,
      fun hinit hleft hright => ?_⟩
    · have hwell : frame.1.wellFormed s.cfg = true :=
        wellFormed_of_frame hi ((deviceOk_iff s.cfg dev).mpr hdev) fun index' w' hone =>
          (indexByteOk_iff index').mpr (hindexOf index' w' hone ▸ hindex)
      rw [whenIssued_of_wellFormed ⟨hl, hinit⟩ hwell]
      exact frameTransaction_returns dev frame.2 ha
    · have hdev : deviceOk s.cfg dev = false := by
        rw [← Bool.not_eq_true, deviceOk_iff, not_or]
        exact ⟨hleft, hright⟩
      exact whenIssued_of_illFormed ⟨hl, hinit⟩ (illFormed_of_frame hi hdev) _
  · have hbad : indexByteOk index = false := by
      rw [← Bool.not_eq_true, indexByteOk_iff, Nat.not_lt]
      exact hindex
    exact whenIssued_of_illFormed (i := .ledSetOne dev index w) ⟨hl, hinit⟩ (Bool.and_eq_false_iff.mpr (.inr hbad)) _

/-- Settles O58: each LED frame is delivered, and the LED array it leaves is read at every index. -/
theorem ledFramesSetThePeripheralsLeds : Obligations.LedFramesSetThePeripheralsLeds := by
  rintro s h index w n ws p hr hu rfl hf
  have hindexOk : indexByteOk (index.setWidth 8) = true := by
    rw [indexByteOk_iff, BitVec.toNat_setWidth]
    omega
  refine ⟨⟨setLed (s.periph.get h).leds index w, ?_, fun j => ledAt_setLed _ index j w⟩,
    ⟨Vector.replicate 32 w, ?_, ledAt_replicate w⟩,
    ⟨writeBank (s.periph.get h).leds n ws, _, exec_frame_delivered hr hu hf rfl nofun, rfl, ?_, rfl,
      ledAt_writeBank _ n ws⟩, fun big hbig => ?_⟩
  · rw [exec_frame_delivered (h := h) hr hu hf rfl (by rintro _ _ ⟨⟩; exact hindexOk), receiveFrame_ledSetOne]
    rfl
  · exact exec_frame_delivered hr hu hf rfl nofun
  · constructor <;> rfl
  · have hdecode : decodeFrame s.cfg (devAddr s.cfg h) [s.cfg.cmdLedSetOne, big, w.b, w.g, w.r] =
        .ok (.ledSetOne (devAddr s.cfg h) big w) := decodeFrame_of_frame hr.1.1 rfl
    rw [takeWrite_frame hf hdecode, receiveFrame_ledSetOne_invalid _ _ _ hbig]

/-- Settles O59: each register frame is delivered, and does to the peripheral what R64 and R65 say. -/
theorem registerFramesWriteThePeripheral : Obligations.RegisterFramesWriteThePeripheral := by
  rintro s h v p hr hu rfl hf x hx
  simp only [List.mem_cons, List.not_mem_nil, or_false] at hx
  rcases hx with rfl | rfl | rfl | rfl | rfl <;> exact exec_frame_delivered hr hu hf rfl nofun

/-- Settles O60: a failing hand answers everything with status 2 and stays as it is; the flush clears the bit all the same,
and the colour set again is the one stored, so nothing is marked. -/
theorem failedBankWriteIsNotRepaired : Obligations.FailedBankWriteIsNotRepaired := fun s h hr hu hf => by
  have hok : configOk s.cfg = true := hr.1.1
  refine ⟨respondWrite_fail hok hf, respondRead_fail hok hf, ?_, fun n hn hdirty => ?_⟩
  · change execSRdkeys h s = _
    rw [execSRdkeys, whenAdmitted_of_ready hr, readKeys_fail hok hu hf, BusRun.returned_andThen, finish_returned]
  · have hexec : exec (.sUpdbank h) s = .next ((cleanBank h n ((advanceCursor h s).logged
        (.write (devAddr s.cfg h) (bankFrameNow h n s) 2))).withResult .none) := by
      change execSUpdbank h s = _
      rw [execSUpdbank, whenAdmitted_of_ready hr, updateNextLedBank_fail hok hu hf hn hdirty, BusRun.returned_andThen,
        finish_returned]
    refine ⟨_, hexec, rfl, rfl, ?_, rfl, fun i hi => ?_⟩
    · simp [cleanBank, isDirty_markClean]
    · rw [exec_sSetlc_of_ready ?ready, setLedColor_of_stored ?stored]
      case ready => exact hr
      case stored => exact hi.symm

end Sys2Proof.Machine
end

section
/-! # Host invocations

The decoder and the encoder of the host port agree (30_encoding.md R100): an operation's bytes are read back with
whatever follows them left over, and nothing else is read; then the three ways in which bytes are no invocation (R104). -/

namespace Sys2Proof

/-! ## Encoded operands are read back -/

theorem decodeHand_handByte (h : Hand) : decodeHand (handByte h) = .ok h := by cases h <;> rfl

theorem handOperand_handByte (h : Hand) (args : List Byte)
    (k : Hand → List Byte → Except DecodeError (Instr × List Byte)) :
    handOperand (handByte h :: args) k = k h args := by
  simp only [handOperand, operand, decodeHand_handByte]

/-- The bytes of an operation are read as that operation, and what follows them is left (30_encoding.md R100). -/
theorem decodeHost_of_operation {cfg : Config} {i : Instr} {bytes : List Byte} (hi : encode cfg i = .host bytes)
    (rest : List Byte) : decodeHost (bytes ++ rest) = .ok (i, rest) := by
  cases i with
  | setup | scanm | nextev | updleds | setkc | getkc | setksi | ledpf | reboot =>
    cases hi
    rfl
  | sRdkeys h | sSetlc h | sGetlc h | sUpdbank h | sUpdled h | sUpdall h | sSetksi h | sSetspi h | sRdver h | sRdksi h
  | sRdspi h =>
    cases hi
    exact handOperand_handByte h _ _
  | _ => cases hi

/-! ## Whatever is read was encoded -/

/-- What `d` reads from `bytes`, if it reads an instruction, is an operation's encoding, and the rest is left. -/
def ReadsEncoding (bytes : List Byte) (d : Except DecodeError (Instr × List Byte)) : Prop :=
  ∀ i rest, d = .ok (i, rest) → Machine.isOperation i ∧ ∀ cfg, bytes = (encode cfg i).bytes ++ rest

theorem readsEncoding_ok {bytes rest : List Byte} {i : Instr} (hi : Machine.isOperation i)
    (hbytes : ∀ cfg, bytes = (encode cfg i).bytes ++ rest) : ReadsEncoding bytes (.ok (i, rest)) := by
  rintro _ _ ⟨⟩
  exact ⟨hi, hbytes⟩

theorem readsEncoding_error (bytes : List Byte) (e : DecodeError) : ReadsEncoding bytes (.error e) := by
  rintro _ _ ⟨⟩

section
variable (read : List Byte) {args : List Byte}

theorem readsEncoding_operand {k : Byte → List Byte → Except DecodeError (Instr × List Byte)}
    (hk : ∀ a rest, ReadsEncoding (read ++ a :: rest) (k a rest)) :
    ReadsEncoding (read ++ args) (operand args k) := by
  cases args with
  | nil => exact readsEncoding_error _ _
  | cons a rest => exact hk a rest

theorem readsEncoding_handOperand {k : Hand → List Byte → Except DecodeError (Instr × List Byte)}
    (hk : ∀ h rest, ReadsEncoding (read ++ handByte h :: rest) (k h rest)) :
    ReadsEncoding (read ++ args) (handOperand args k) := by
  refine readsEncoding_operand read fun a rest => ?_
  unfold decodeHand
  split_ifs with hleft hright
  · subst hleft
    exact hk .left rest
  · subst hright
    exact hk .right rest
  · exact readsEncoding_error _ _

theorem readsEncoding_colorOperand {k : Color → List Byte → Except DecodeError (Instr × List Byte)}
    (hk : ∀ c rest, ReadsEncoding (read ++ c.r :: c.g :: c.b :: rest) (k c rest)) :
    ReadsEncoding (read ++ args) (colorOperand args k) := by
  refine readsEncoding_operand read fun r args => ?_
  rw [List.append_cons]
  refine readsEncoding_operand _ fun g args => ?_
  rw [List.append_cons]
  refine readsEncoding_operand _ fun b rest => ?_
  rw [← List.append_cons, ← List.append_cons]
  exact hk ⟨r, g, b⟩ rest

end

/-- The decoder of the host port reads nothing but encodings of operations, row by row of the table of R100. -/
theorem decodeHost_readsEncoding (bytes : List Byte) : ReadsEncoding bytes (decodeHost bytes) := by
  cases bytes with
  | nil => exact readsEncoding_error _ _
  | cons op args =>
    rw [decodeHost.eq_def]
    dsimp only
    split
    -- No operand.
    case h_1 | h_2 | h_3 | h_4 | h_8 | h_9 => exact readsEncoding_ok ⟨_, rfl⟩ fun _ => rfl
    -- A key and a colour.
    case h_5 =>
      exact readsEncoding_operand [_] fun k _ => readsEncoding_colorOperand [_, k] fun _ _ =>
        readsEncoding_ok ⟨_, rfl⟩ fun _ => rfl
    -- One byte.
    case h_6 | h_7 => exact readsEncoding_operand [_] fun _ _ => readsEncoding_ok ⟨_, rfl⟩ fun _ => rfl
    -- A hand, an index and a colour.
    case h_11 | h_14 =>
      exact readsEncoding_handOperand [_] fun h _ => readsEncoding_operand [_, handByte h] fun i _ =>
        readsEncoding_colorOperand [_, handByte h, i] fun _ _ => readsEncoding_ok ⟨_, rfl⟩ fun _ => rfl
    -- A hand and a colour.
    case h_15 =>
      exact readsEncoding_handOperand [_] fun h _ => readsEncoding_colorOperand [_, handByte h] fun _ _ =>
        readsEncoding_ok ⟨_, rfl⟩ fun _ => rfl
    -- A hand and one byte.
    case h_12 | h_16 | h_17 =>
      exact readsEncoding_handOperand [_] fun h _ => readsEncoding_operand [_, handByte h] fun _ _ =>
        readsEncoding_ok ⟨_, rfl⟩ fun _ => rfl
    -- A hand.
    case h_10 | h_13 | h_18 | h_19 | h_20 =>
      exact readsEncoding_handOperand [_] fun _ _ => readsEncoding_ok ⟨_, rfl⟩ fun _ => rfl
    -- No row of the table.
    case h_21 => exact readsEncoding_error _ _

/-! ## Bytes that are no invocation (R104) -/

/-- Bytes that begin with no operation's encoding are read as nothing. -/
theorem decodeHost_of_noInvocation {bytes : List Byte} (cfg : Config)
    (hnone : ∀ i tail, bytes ≠ (encode cfg i).bytes ++ tail ∨ ¬ Machine.isOperation i) :
    ∃ e, decodeHost bytes = .error e := by
  cases hd : decodeHost bytes with
  | error e => exact ⟨e, rfl⟩
  | ok d =>
    obtain ⟨hop, hbytes⟩ := decodeHost_readsEncoding bytes d.1 d.2 hd
    obtain hne | hnop := hnone d.1 d.2
    · exact absurd (hbytes cfg) hne
    · exact absurd hop hnop

theorem decodeHost_unknownOpsel {op : Byte} (hop : ¬ (op.toNat ≤ 0x08 ∨ 0x10 ≤ op.toNat ∧ op.toNat ≤ 0x1A))
    (args : List Byte) : decodeHost (op :: args) = .error .unknownOpsel := by
  rw [decodeHost.eq_def]
  dsimp only
  split
  case h_21 => rfl
  all_goals exact absurd (by decide) hop

/-- The operations of one Scanner begin with the hand operand (30_encoding.md R100). -/
theorem decodeHost_scanner {op : Byte} (hlow : 0x10 ≤ op.toNat) (hhigh : op.toNat ≤ 0x1A) (args : List Byte) :
    ∃ k, decodeHost (op :: args) = handOperand args k := by
  have hop : op ∈ [0x10, 0x11, 0x12, 0x13, 0x14, 0x15, 0x16, 0x17, 0x18, 0x19, 0x1A] := by decide +revert
  simp only [List.mem_cons, List.not_mem_nil, or_false] at hop
  rcases hop with rfl | rfl | rfl | rfl | rfl | rfl | rfl | rfl | rfl | rfl | rfl <;> exact ⟨_, rfl⟩

theorem handOperand_badHand {a : Byte} (ha : 2 ≤ a.toNat) (args : List Byte)
    (k : Hand → List Byte → Except DecodeError (Instr × List Byte)) :
    handOperand (a :: args) k = .error .badHand := by
  have hleft : a ≠ 0 := by rintro rfl; exact absurd ha (by decide)
  have hright : a ≠ 1 := by rintro rfl; exact absurd ha (by decide)
  simp only [handOperand, operand, decodeHand, if_neg hleft, if_neg hright]

end Sys2Proof
end

section
/-! # Decoding what the encoder writes

Each of the three encoded forms is read back (30_encoding.md R88, R99, R100). -/

namespace Sys2Proof

/-! ## A packet by its form -/

theorem decode_host_of_whole (cfg : Config) {bytes : List Byte} {i : Instr} (h : decodeHost bytes = .ok (i, [])) :
    decode cfg (.host bytes) = .ok (i, none) := by simp only [decode, h]

theorem decode_host_of_error (cfg : Config) {bytes : List Byte} {e : DecodeError} (h : decodeHost bytes = .error e) :
    decode cfg (.host bytes) = .error e := by simp only [decode, h]

theorem decode_busWrite_of_frame {cfg : Config} {dev : BitVec 7} {bytes : List Byte} {i : Instr}
    (h : decodeFrame cfg dev bytes = .ok i) : decode cfg (.busWrite dev bytes) = .ok (i, none) := by
  simp only [decode, h]

theorem decode_busRead_of_reply {cfg : Config} {dev : BitVec 7} {bytes : List Byte} {i : Instr}
    (h : decodeReply cfg dev bytes = .ok i) : decode cfg (.busRead dev bytes) = .ok (i, none) := by
  simp only [decode, h]

/-! ## The round trip -/

/-- The decoder reads every reply as what it was written for (30_encoding.md R87, R89). -/
theorem decodeReply_of_reply {cfg : Config} {i : Instr} {dev : BitVec 7} {bytes : List Byte}
    (hi : encode cfg i = .busRead dev bytes) : decodeReply cfg dev bytes = .ok i := by
  cases i <;> cases hi
  case keydata => exact if_pos rfl
  case reg => rfl

theorem decode_encode {cfg : Config} (hc : configOk cfg = true) (i : Instr) :
    decode cfg (encode cfg i) = .ok (i, none) := by
  cases hi : encode cfg i with
  | host bytes =>
    refine decode_host_of_whole cfg ?_
    rw [← decodeHost_of_operation hi [], List.append_nil]
  | busWrite dev bytes => exact decode_busWrite_of_frame (decodeFrame_of_frame hc hi)
  | busRead dev bytes => exact decode_busRead_of_reply (decodeReply_of_reply hi)

end Sys2Proof
end

section
/-! # The statements of 30_encoding.md: decoding -/

namespace Sys2Proof.Machine

/-- Settles O1, by the form of the encoding: a host invocation, a frame or a reply. -/
theorem decodeOfEncodeIsTheInstruction : Obligations.DecodeOfEncodeIsTheInstruction :=
  fun _ hc i => decode_encode hc i

/-- Settles O2: each word is the encoding of its instruction under the default configuration. -/
theorem wordsOfTheSpecDecode : Obligations.WordsOfTheSpecDecode :=
  ⟨decode_encode configOk_default (.setkc 9 ⟨0, 0xFF, 0⟩),
    decode_encode configOk_default (.sUpdled .right 31 ⟨0x10, 0x20, 0x30⟩),
    decode_encode configOk_default (.setksi 50),
    decode_encode configOk_default (.sRdksi .right),
    decode_encode configOk_default (.ledSetOne 0x5B 31 ⟨9, 4, 1⟩),
    decode_encode configOk_default (.ledSetAll 0x58 ⟨0xFF, 0xFF, 0xFF⟩),
    decode_encode configOk_default (.keyscanInterval 0x5B 50),
    decode_encode configOk_default (.regselSpi 0x58),
    decode_encode configOk_default (.keydata 0x58 0x20 0 0 0)⟩

/-- A host packet that the decoder refuses is refused by the step, in every state. -/
theorem step_of_undecodable_host {s : State} {bytes : List Byte} {rest : List Input} {e : DecodeError}
    (hin : s.inbox = .packet (.host bytes) :: rest) (he : decodeHost bytes = .error e) :
    step s = whenConfigured s (.refused (.undecodable e)) :=
  step_of_undecodable hin (decode_host_of_error s.cfg he)

/-- Settles O4: what the decoder reads is an operation's encoding, so bytes that begin with none are refused; an unknown
`opsel`, a bad hand and a missing hand are each refused by name. -/
theorem undefinedInvocationsAreRefused : Obligations.UndefinedInvocationsAreRefused := fun s bytes rest hin => by
  refine ⟨fun hnone => ?_, fun hc => ⟨?opsel, ?hand, ?missing⟩⟩
  · obtain ⟨e, he⟩ := decodeHost_of_noInvocation s.cfg hnone
    have hstep := step_of_undecodable_host hin he
    refine ⟨?_, fun hc => ⟨e, by rw [hstep, whenConfigured_of_ok hc]⟩⟩
    cases hc : configOk s.cfg with
    | true => exact ⟨_, hstep.trans (whenConfigured_of_ok hc _)⟩
    | false => exact ⟨_, step_of_illFormedConfig hc⟩
  case opsel =>
    rintro op args rfl hop
    rw [step_of_undecodable_host hin (decodeHost_unknownOpsel hop args), whenConfigured_of_ok hc]
  case hand =>
    rintro op a args rfl hlow hhigh ha
    obtain ⟨k, hk⟩ := decodeHost_scanner hlow hhigh (a :: args)
    rw [step_of_undecodable_host hin (hk.trans (handOperand_badHand ha args k)), whenConfigured_of_ok hc]
  case missing =>
    rintro op rfl hlow hhigh
    obtain ⟨k, hk⟩ := decodeHost_scanner hlow hhigh []
    rw [step_of_undecodable_host (e := .missingOperand) hin hk, whenConfigured_of_ok hc]

end Sys2Proof.Machine
end

section
/-! # Colours, bank frames and results as bytes

The packed word and the stored form of a colour (30_encoding.md R95, 42_led_sync.md R181), the bytes of a bank frame
(R83, R94), and the event word (R101), each by the arithmetic of its fields. -/

namespace Sys2Proof.Machine

/-- A field of a word is the value that its number, divided down to the field, leaves. -/
theorem extractLsb'_eq {m n start : Nat} {word : BitVec n} {x : BitVec m}
    (h : word.toNat / 2 ^ start % 2 ^ m = x.toNat) : word.extractLsb' start m = x :=
  BitVec.eq_of_toNat_eq (by rw [BitVec.extractLsb'_toNat, Nat.shiftRight_eq_div_pow, h])

/-! ## Colours (R95, R181) -/

theorem shrink5_toNat (c : Byte) : (shrink5 c).toNat = c.toNat / 8 := by
  rw [shrink5, BitVec.extractLsb'_toNat, Nat.shiftRight_eq_div_pow]
  omega

/-- The five bits, and their high three again below. -/
theorem expand5_toNat (x : BitVec 5) : (expand5 x).toNat = 8 * x.toNat + x.toNat / 4 := by
  unfold expand5
  decide +revert +kernel

theorem packColor_toNat (c : Color) :
    (packColor c).toNat = c.b.toNat / 8 * 1024 + c.g.toNat / 8 * 32 + c.r.toNat / 8 := by
  simp only [packColor, toNat_append_eq_add, shrink5_toNat, BitVec.ofNat_eq_ofNat, BitVec.toNat_ofNat]
  omega

/-- Each channel is read back from its five bits of the packed word. -/
theorem unpackColor_packColor (c : Color) :
    unpackColor (packColor c) = ⟨expand5 (shrink5 c.r), expand5 (shrink5 c.g), expand5 (shrink5 c.b)⟩ := by
  have hword := packColor_toNat c
  have hred : (packColor c).extractLsb' 0 5 = shrink5 c.r := extractLsb'_eq (by rw [shrink5_toNat]; omega)
  have hgreen : (packColor c).extractLsb' 5 5 = shrink5 c.g := extractLsb'_eq (by rw [shrink5_toNat]; omega)
  have hblue : (packColor c).extractLsb' 10 5 = shrink5 c.b := extractLsb'_eq (by rw [shrink5_toNat]; omega)
  rw [unpackColor, hred, hgreen, hblue]

theorem quantise_rgb555 {cfg : Config} (hmode : cfg.colorMode = .rgb555) (c : Color) :
    quantise cfg c = unpackColor (packColor c) := by
  rw [quantise, hmode, unpackColor_packColor]

/-! ## Bank frames (R83, R94) -/

/-- The LED in slot j of bank n (20_memory.md R41). -/
theorem bankLed_toNat (n : BitVec 2) (j : BitVec 3) : (bankLed n j).toNat = 8 * n.toNat + j.toNat := by
  rw [bankLed, toNat_append_eq_add]
  omega

theorem bankWire_getElem (cfg : Config) (leds : Vector Color 32) (n : BitVec 2) (j : BitVec 3) :
    (bankWire cfg leds n)[j.toNat]'(j.isLt) = slotWire cfg leds n j := by
  have hj : j = 0 ∨ j = 1 ∨ j = 2 ∨ j = 3 ∨ j = 4 ∨ j = 5 ∨ j = 6 ∨ j = 7 := by decide +revert
  rcases hj with rfl | rfl | rfl | rfl | rfl | rfl | rfl | rfl <;> rfl

/-- Triple j of a list of colours on the wire stands at bytes 3j, 3j + 1 and 3j + 2, blue first (20_memory.md R48). -/
theorem getElem?_flatMap_bgrBytes (ws : List Bgr) {j : Nat} {w : Bgr} (hw : ws[j]? = some w) :
    (ws.flatMap bgrBytes)[3 * j]? = some w.b ∧ (ws.flatMap bgrBytes)[3 * j + 1]? = some w.g ∧
      (ws.flatMap bgrBytes)[3 * j + 2]? = some w.r := by
  induction ws generalizing j with
  | nil => simp at hw
  | cons v ws ih =>
    cases j with
    | zero =>
      obtain rfl : v = w := by simpa using hw
      exact ⟨rfl, rfl, rfl⟩
    | succ j => exact ih (by simpa using hw)

/-- The three bytes of slot j in a bank frame, after the command byte (30_encoding.md R83). -/
theorem ledBankFrame_slot (cfg : Config) (n : BitVec 2) (ws : Vector Bgr 8) {j : Nat} (hj : j < 8) :
    (ledBankFrame cfg n ws)[1 + 3 * j]? = some ws[j].b ∧ (ledBankFrame cfg n ws)[2 + 3 * j]? = some ws[j].g ∧
      (ledBankFrame cfg n ws)[3 + 3 * j]? = some ws[j].r := by
  have hslot : ws.toList[j]? = some ws[j] := by simp [hj]
  obtain ⟨hb, hg, hr⟩ := getElem?_flatMap_bgrBytes ws.toList hslot
  rw [ledBankFrame, show 1 + 3 * j = 3 * j + 1 by omega, show 2 + 3 * j = 3 * j + 1 + 1 by omega,
    show 3 + 3 * j = 3 * j + 2 + 1 by omega]
  exact ⟨hb, hg, hr⟩

/-! ## The event word (R101) -/

theorem eventWord_toNat (e : KeyEvent) : (eventWord (some e)).toNat =
    2 ^ 15 + e.address.toNat * 2 ^ 8 + e.previousState.toNat * 2 + e.currentState.toNat := by
  simp only [eventWord, toNat_append_eq_add, BitVec.ofNat_eq_ofNat, BitVec.toNat_ofNat, BitVec.toNat_ofBool]
  omega

/-- The event word field by field. -/
theorem eventWord_fields (e : KeyEvent) :
    (eventWord (some e)).getLsbD 15 = true ∧ (eventWord (some e)).extractLsb' 8 6 = e.address ∧
      (eventWord (some e)).getLsbD 1 = e.previousState ∧ (eventWord (some e)).getLsbD 0 = e.currentState ∧
      (eventWord (some e)).getLsbD 14 = false ∧ (eventWord (some e)).extractLsb' 2 6 = 0 := by
  have hword := eventWord_toNat e
  have hprevious := Bool.toNat_le e.previousState
  have hcurrent := Bool.toNat_le e.currentState
  have hbit (i : Nat) (b : Bool) (h : (eventWord (some e)).toNat / 2 ^ i % 2 = b.toNat) :
      (eventWord (some e)).getLsbD i = b := by
    rw [BitVec.getLsbD, Nat.testBit_eq_decide_div_mod_eq, h]
    cases b <;> rfl
  refine ⟨hbit 15 true ?_, extractLsb'_eq (by omega), hbit 1 _ (by omega), hbit 0 _ (by omega), hbit 14 false ?_,
    extractLsb'_eq ?_⟩
  · rw [Bool.toNat_true]
    omega
  · rw [Bool.toNat_false]
    omega
  · simp only [BitVec.ofNat_eq_ofNat, BitVec.toNat_ofNat]
    omega

end Sys2Proof.Machine
end

section
/-! # The statements of 30_encoding.md: addresses, colours, formats -/

namespace Sys2Proof.Machine

/-- Settles O8: the addresses share no bit (R4 b), so OR is addition. -/
theorem deviceAddressesDiffer : Obligations.DeviceAddressesDiffer := fun cfg hc => by
  obtain ⟨-, haddresses, -⟩ := (configOk_iff cfg).mp hc
  obtain ⟨hdisjoint, -⟩ := (addressesOk_iff cfg).mp haddresses
  refine ⟨rfl, rfl, devAddr_left_ne_right hc, ?_⟩
  rw [devAddr, devAddr, ← BitVec.add_eq_or_of_and_eq_zero _ _ hdisjoint, BitVec.toNat_add_of_and_eq_zero hdisjoint]

/-- Settles O13, channel by channel. -/
theorem packedColourReadsBack : Obligations.PackedColourReadsBack := fun cfg c =>
  ⟨packColor_toNat c, fun hmode => quantise_rgb555 hmode c, fun hmode => quantise_rgb888 hmode c,
    quantise_quantise cfg c, expand5_toNat, rfl, rfl⟩

/-- Settles O14: slot j of the frame is the wire form of the LED in slot j of the bank. -/
theorem bankFrameLayout : Obligations.BankFrameLayout := fun h n s => by
  refine ⟨Laws.EncodedLength.ledBank 0 n _ s.cfg, rfl, fun j i hi => ?_⟩
  obtain rfl : i = bankLed n j := BitVec.eq_of_toNat_eq (hi.trans (bankLed_toNat n j).symm)
  have hslot := ledBankFrame_slot s.cfg n (bankWire s.cfg (s.fb.get h) n) j.isLt
  rw [bankWire_getElem] at hslot
  exact hslot

/-- Settles O5. -/
theorem resultFormats : Obligations.ResultFormats :=
  ⟨fun _ _ _ _ _ _ _ => ⟨rfl, rfl, rfl, rfl, rfl, rfl, rfl, rfl, rfl⟩, rfl, eventWord_fields⟩

end Sys2Proof.Machine
end

section
/-! # What is issued on the bus

Whether every transaction of the history is one the block may issue (30_encoding.md R96, 20_memory.md R43,
40_bus_transceiver.md R128) is a view of the state, and each part of each operation keeps it: what it appends is a
well-formed frame, or a read of 5 bytes or of 1 from one of the two devices. -/

namespace Sys2Proof.Machine

/-! ## One more transaction -/

theorem logFramed_congr {s t : State} (hlog : t.busLog = s.busLog) (hcfg : t.cfg = s.cfg) :
    t.LogFramed = s.LogFramed := by
  rw [State.LogFramed, State.LogFramed, hlog, hcfg]

theorem logFramed_append {s t : State} {e : Transaction} (hlog : t.busLog = s.busLog ++ [e]) (hcfg : t.cfg = s.cfg)
    (he : e.Framed s.cfg) : t.LogFramed = s.LogFramed := by
  rw [State.LogFramed, State.LogFramed, hlog, hcfg, List.forall_mem_append, List.forall_mem_singleton, eq_iff_iff]
  exact and_iff_left he

/-- A part that runs on what the part before it returned may use how it returned. -/
theorem BusRun.Keeps.andThen_of_returned {α β γ : Type} {f : State → γ} {s : State} {m : BusRun α}
    {k : α → State → BusRun β} (hm : m.Keeps f s) (hk : ∀ a t, m = .returned a t → (k a t).Keeps f t) :
    (m.andThen k).Keeps f s := by
  cases m with
  | returned a t => exact (hk a t rfl).of_eq hm
  | hung t => exact hm

section
variable {i : Instr} {s : State} {dev : BitVec 7} {bytes : List Byte}

theorem busWrite_keeps_logFramed (hi : encode s.cfg i = .busWrite dev bytes) (hw : i.wellFormed s.cfg = true) :
    (busWrite dev bytes s).Keeps State.LogFramed s := by
  obtain ⟨st, t, hrun, ht⟩ | ⟨t, hrun, ht, -⟩ := busWrite_cases dev bytes s
  · rw [hrun]
    exact logFramed_append ht.busLog ht.block.cfg ⟨i, hw, hi⟩
  · rw [hrun]
    exact logFramed_congr ht.busLog ht.block.cfg

theorem busRead_keeps_logFramed {n : Nat} (hdev : deviceOk s.cfg dev = true) (hn : n = 5 ∨ n = 1) :
    (busRead dev n s).Keeps State.LogFramed s := by
  obtain ⟨r, t, hrun, ht⟩ | ⟨t, hrun, ht, -⟩ := busRead_cases dev n s
  · rw [hrun]
    exact logFramed_append ht.busLog ht.block.cfg ⟨hdev, hn⟩
  · rw [hrun]
    exact logFramed_congr ht.busLog ht.block.cfg

end

/-! ## The parts of the operations -/

theorem indexByteOk_setWidth (j : BitVec 5) : indexByteOk (j.setWidth 8) = true := by
  rw [indexByteOk_iff, BitVec.toNat_setWidth]
  omega

theorem readKeys_keeps_logFramed (h : Hand) (s : State) : (readKeys h s).Keeps State.LogFramed s :=
  (busRead_keeps_logFramed (deviceOk_devAddr _ h) (.inl rfl)).andThen fun _ _ => rfl

theorem readRegister_keeps_logFramed {h : Hand} {sel : Byte} {s : State} {i : Instr}
    (hi : encode s.cfg i = .busWrite (devAddr s.cfg h) [sel]) (hw : i.wellFormed s.cfg = true) :
    (readRegister h sel s).Keeps State.LogFramed s := by
  refine (busWrite_keeps_logFramed hi hw).andThen_of_returned fun status t hrun => ?_
  have hcfg : t.cfg = s.cfg := by
    have hkeeps := busWrite_keeps_cfg (devAddr s.cfg h) [sel] s
    rwa [hrun] at hkeeps
  split
  · refine (busRead_keeps_logFramed ?_ (.inr rfl)).andThen fun _ _ => rfl
    rw [hcfg, deviceOk_devAddr]
  · rfl

theorem storeScan_logFramed (h : Hand) (d : Option Scan) (s : State) : (storeScan h d s).LogFramed = s.LogFramed := by
  cases d <;> rfl

theorem scanMatrix_keeps_logFramed (s : State) : (scanMatrix s).Keeps State.LogFramed s := by
  refine ((readKeys_keeps_logFramed .left (s.withPrevScan s.currScan)).of_eq rfl).andThen fun d0 s1 => ?_
  refine ((readKeys_keeps_logFramed .right _).of_eq (storeScan_logFramed .left d0 s1)).andThen fun d1 s2 => ?_
  exact storeScan_logFramed .right d1 s2

theorem setLedColor_logFramed (h : Hand) (j : BitVec 5) (c : Color) (s : State) :
    (setLedColor h j c s).LogFramed = s.LogFramed := by
  unfold setLedColor
  split <;> rfl

theorem updateNextLedBank_keeps_logFramed (h : Hand) (s : State) :
    (updateNextLedBank h s).Keeps State.LogFramed s := by
  have hframe (t : State) (n : BitVec 2) :
      (busWrite (devAddr t.cfg h) (bankFrameNow h n t) t).Keeps State.LogFramed t :=
    busWrite_keeps_logFramed (i := .ledBank (devAddr t.cfg h) n _) rfl (deviceOk_devAddr _ h)
  unfold updateNextLedBank flushSelected
  split
  · exact ((hframe (advanceCursor h s) _).of_eq rfl).andThen fun _ _ => rfl
  · rfl

theorem updateLeds_keeps_logFramed (s : State) : (updateLeds s).Keeps State.LogFramed s := by
  unfold updateLeds
  split
  · exact ((updateNextLedBank_keeps_logFramed .left _).of_eq rfl).andThen fun _ t =>
      updateNextLedBank_keeps_logFramed .right t
  · rfl

theorem updateLed_keeps_logFramed (h : Hand) (j : BitVec 5) (c : Color) (s : State) :
    (updateLed h j c s).Keeps State.LogFramed s :=
  (busWrite_keeps_logFramed (i := .ledSetOne (devAddr s.cfg h) (j.setWidth 8) _) rfl
    (Bool.and_eq_true_iff.mpr ⟨deviceOk_devAddr _ h, indexByteOk_setWidth j⟩)).andThen fun _ _ => rfl

theorem updateAllLeds_keeps_logFramed (h : Hand) (c : Color) (s : State) :
    (updateAllLeds h c s).Keeps State.LogFramed s :=
  (busWrite_keeps_logFramed (i := .ledSetAll (devAddr s.cfg h) _) rfl (deviceOk_devAddr _ h)).andThen fun _ _ => rfl

theorem writeKeyscanInterval_keeps_logFramed (h : Hand) (v : Byte) (s : State) :
    (writeKeyscanInterval h v s).Keeps State.LogFramed s :=
  busWrite_keeps_logFramed (i := .keyscanInterval (devAddr s.cfg h) v) rfl (deviceOk_devAddr _ h)

theorem writeLedSpiFrequency_keeps_logFramed (h : Hand) (v : Byte) (s : State) :
    (writeLedSpiFrequency h v s).Keeps State.LogFramed s :=
  busWrite_keeps_logFramed (i := .ledSpiFrequency (devAddr s.cfg h) v) rfl (deviceOk_devAddr _ h)

theorem setupBlock_keeps_logFramed (s : State) : (setupBlock s).Keeps State.LogFramed s :=
  ((updateAllLeds_keeps_logFramed .left _ (setupRegisters s)).of_eq rfl).andThen fun _ t =>
    (updateAllLeds_keeps_logFramed .right _ t).andThen fun _ _ => rfl

/-! ## The operations -/

theorem finish_keeps_logFramed {m : BusRun Result} {s : State} (hm : m.Keeps State.LogFramed s) :
    NextKeeps State.LogFramed s (finish m) :=
  hm.finish (fun _ _ => rfl) fun _ => rfl

theorem finish_shown_keeps_logFramed {α : Type} {m : BusRun α} {s : State} (shown : α → Result)
    (hm : m.Keeps State.LogFramed s) :
    NextKeeps State.LogFramed s (finish (m.andThen fun a t => .returned (shown a) t)) :=
  finish_keeps_logFramed (hm.andThen fun _ _ => rfl)

/-- A bare frame is issued only if it is well formed (40_bus_transceiver.md R128). -/
theorem exec_frame_keeps_logFramed {i : Instr} {s : State} {dev : BitVec 7} {bytes : List Byte}
    (hi : encode s.cfg i = .busWrite dev bytes) : NextKeeps State.LogFramed s (exec i s) := fun t ht => by
  rw [exec_of_frame hi] at ht
  obtain ⟨-, hw, hrun⟩ := whenIssued_next ht
  exact finish_shown_keeps_logFramed _ (busWrite_keeps_logFramed hi hw) t hrun

/-- A bare reply is received only if it is well formed, in a read of its length. -/
theorem whenIssued_reply_keeps_logFramed {i : Instr} {s : State} {dev : BitVec 7} {bytes : List Byte}
    (shown : ReadResult → Result) (hw : i.wellFormed s.cfg = deviceOk s.cfg dev)
    (hn : bytes.length = 5 ∨ bytes.length = 1) :
    NextKeeps State.LogFramed s (whenIssued i s (replyTransaction dev bytes shown s)) := fun t ht => by
  obtain ⟨-, hwell, hrun⟩ := whenIssued_next ht
  have hread : (busRead dev bytes.length (s.withTurns (⟨none, none, .forced 0 bytes⟩ :: s.turns))).Keeps
      State.LogFramed s := (busRead_keeps_logFramed (hw ▸ hwell) hn).of_eq rfl
  exact finish_shown_keeps_logFramed shown hread t hrun

theorem execSetksi_keeps_logFramed (v : Byte) (s : State) : NextKeeps State.LogFramed s (execSetksi v s) := by
  refine NextKeeps.whenAdmitted (finish_keeps_logFramed ?_)
  exact (writeKeyscanInterval_keeps_logFramed .left v s).andThen fun _ t =>
    (writeKeyscanInterval_keeps_logFramed .right v t).andThen fun _ _ => rfl

theorem execSetkc_keeps_logFramed (k : Byte) (c : Color) (s : State) :
    NextKeeps State.LogFramed s (execSetkc k c s) := by
  refine NextKeeps.whenAdmitted ?_
  split
  · exact nextKeeps_next (setLedColor_logFramed _ _ c s)
  · exact nextKeeps_next rfl

theorem execSSetlc_keeps_logFramed (h : Hand) (j : Byte) (c : Color) (s : State) :
    NextKeeps State.LogFramed s (execSSetlc h j c s) := by
  refine NextKeeps.whenAdmitted ?_
  split
  · exact nextKeeps_next (setLedColor_logFramed h _ c s)
  · exact nextKeeps_next rfl

theorem execSUpdled_keeps_logFramed (h : Hand) (j : Byte) (c : Color) (s : State) :
    NextKeeps State.LogFramed s (execSUpdled h j c s) := by
  refine NextKeeps.whenAdmitted ?_
  split
  · exact finish_shown_keeps_logFramed _ (updateLed_keeps_logFramed h _ c s)
  · exact nextKeeps_next rfl

theorem exec_keeps_logFramed (i : Instr) (s : State) : NextKeeps State.LogFramed s (exec i s) := by
  have hdev (h : Hand) : deviceOk s.cfg (devAddr s.cfg h) = true := deviceOk_devAddr s.cfg h
  cases i with
  | setup => exact (finish_shown_keeps_logFramed _ (setupBlock_keeps_logFramed s)).whenLive
  | scanm => exact (finish_shown_keeps_logFramed _ (scanMatrix_keeps_logFramed s)).whenAdmitted
  | nextev | getkc | ledpf | reboot | sGetlc => exact (nextKeeps_next (by rfl)).whenAdmitted
  | updleds => exact (finish_shown_keeps_logFramed _ (updateLeds_keeps_logFramed s)).whenAdmitted
  | setkc k c => exact execSetkc_keeps_logFramed k c s
  | setksi v => exact execSetksi_keeps_logFramed v s
  | sRdkeys h => exact (finish_shown_keeps_logFramed _ (readKeys_keeps_logFramed h s)).whenAdmitted
  | sSetlc h j c => exact execSSetlc_keeps_logFramed h j c s
  | sUpdbank h => exact (finish_shown_keeps_logFramed _ (updateNextLedBank_keeps_logFramed h s)).whenAdmitted
  | sUpdled h j c => exact execSUpdled_keeps_logFramed h j c s
  | sUpdall h c => exact (finish_shown_keeps_logFramed _ (updateAllLeds_keeps_logFramed h c s)).whenAdmitted
  | sSetksi h v => exact (finish_shown_keeps_logFramed _ (writeKeyscanInterval_keeps_logFramed h v s)).whenAdmitted
  | sSetspi h v => exact (finish_shown_keeps_logFramed _ (writeLedSpiFrequency_keeps_logFramed h v s)).whenAdmitted
  | sRdver h =>
    exact (finish_shown_keeps_logFramed _
      (readRegister_keeps_logFramed (i := .regselVersion _) rfl (hdev h))).whenAdmitted
  | sRdksi h =>
    exact (finish_shown_keeps_logFramed _ (readRegister_keeps_logFramed (i := .regselKsi _) rfl (hdev h))).whenAdmitted
  | sRdspi h =>
    exact (finish_shown_keeps_logFramed _ (readRegister_keeps_logFramed (i := .regselSpi _) rfl (hdev h))).whenAdmitted
  | ledSetOne | ledSetAll | ledBank | keyscanInterval | ledSpiFrequency | regselVersion | regselKsi | regselSpi =>
    exact exec_frame_keeps_logFramed rfl
  | keydata => exact whenIssued_reply_keeps_logFramed _ rfl (.inl rfl)
  | reg => exact whenIssued_reply_keeps_logFramed _ rfl (.inr rfl)

/-! ## Steps -/

theorem step_keeps_logFramed {s t : State} (h : step s = .next t) : t.LogFramed = s.LogFramed := by
  obtain ⟨-, -, rfl⟩ | ⟨p, rest, i, left, -, -, hexec⟩ | ⟨i, rest, -, -, -, rfl⟩ := step_cases h
  · rfl
  · exact exec_keeps_logFramed i (s.withInbox (restOfInbox left rest)) t hexec
  · exact logFramed_congr (takeInput_busLog _ i) (takeInput_cfg _ i)

end Sys2Proof.Machine
end

section
/-! # The statements of 30_encoding.md: frames and replies on the bus -/

namespace Sys2Proof.Machine

/-- Settles O22: every part of every instruction, and every input, keeps the history framed. -/
theorem onlyFramesOfTheCommandMapAreIssued : Obligations.OnlyFramesOfTheCommandMapAreIssued := fun s t hs =>
  ⟨fun i h => (exec_keeps_logFramed i s t h).mpr hs, fun h => (step_keeps_logFramed h).mpr hs⟩

/-- An operation that is one write transaction, and shows its raw status, on a ready block. -/
theorem whenAdmitted_frameTransaction_returns {s : State} (hr : s.Ready) (ha : s.Answered 1) (dev : BitVec 7)
    (bytes : List Byte) :
    ∃ t st, whenAdmitted s (frameTransaction dev bytes s) = .next t ∧ t.result = .status st ∧ SameBlock s t ∧
      (∀ f, s.forcedStatus 0 = some f → st = f) ∧ t.busLog = s.busLog ++ [.write dev bytes st] := by
  rw [whenAdmitted_of_ready hr]
  exact frameTransaction_returns dev bytes ha

/-- Settles O40: each of the two is the one transaction of its frame, whatever answers it. -/
theorem configurationWritesReturnTheRawStatus : Obligations.ConfigurationWritesReturnTheRawStatus :=
  fun s h v hr ha =>
    ⟨whenAdmitted_frameTransaction_returns hr ha (devAddr s.cfg h) (keyscanIntervalFrame s.cfg v),
      whenAdmitted_frameTransaction_returns hr ha (devAddr s.cfg h) (ledSpiFrequencyFrame s.cfg v)⟩

/-- A bare reply is delivered whole, and only the history and the result change (30_encoding.md R87, R89). -/
theorem replyTransaction_delivers (dev : BitVec 7) (bytes : List Byte) (shown : ReadResult → Result) (s : State) :
    replyTransaction dev bytes shown s =
      .next ((s.logged (.read dev bytes.length (.ok bytes))).withResult (shown (.ok bytes))) := by
  rw [replyTransaction, busRead_reply, BusRun.returned_andThen, finish_returned]

/-- KEYDATA as an instruction shows the scan word of its four banks (20_memory.md R47). -/
theorem exec_keydata (dev : BitVec 7) (b0 b1 b2 b3 : Byte) (s : State) :
    exec (.keydata dev b0 b1 b2 b3) s = whenIssued (.keydata dev b0 b1 b2 b3) s
      (.next ((s.logged (.read dev 5 (.ok (keydataReply s.cfg b0 b1 b2 b3)))).withResult
        (.optScan (some (scanOfBanks b0 b1 b2 b3))))) := by
  change execKeydata dev b0 b1 b2 b3 s = _
  rw [execKeydata, replyTransaction_delivers, keydataReply, keyDataOf_tagged]
  rfl

/-- REG as an instruction shows its byte (30_encoding.md R89). -/
theorem exec_reg (dev : BitVec 7) (v : Byte) (s : State) :
    exec (.reg dev v) s = whenIssued (.reg dev v) s
      (.next ((s.logged (.read dev 1 (.ok [v]))).withResult (.optByte (some v)))) := by
  change execReg dev v s = _
  rw [execReg, replyTransaction_delivers]
  rfl

/-- Settles O57: a bare reply is admitted as R240 says, received when its device is one of the two, and delivered
whole. -/
theorem repliesDeliverTheirContents : Obligations.RepliesDeliverTheirContents := fun s dev b0 b1 b2 b3 v hl => by
  rw [exec_keydata, exec_reg]
  refine ⟨fun hinit => ?_, fun hinit hdev => ?_, fun hinit hleft hright => ?_⟩
  · exact ⟨whenIssued_of_uninitialised hl hinit _, whenIssued_of_uninitialised hl hinit _⟩
  · have hwell : deviceOk s.cfg dev = true := (deviceOk_iff s.cfg dev).mpr hdev
    exact ⟨whenIssued_of_wellFormed (i := .keydata dev b0 b1 b2 b3) ⟨hl, hinit⟩ hwell _,
      whenIssued_of_wellFormed (i := .reg dev v) ⟨hl, hinit⟩ hwell _⟩
  · have hill : deviceOk s.cfg dev = false := by
      rw [← Bool.not_eq_true, deviceOk_iff, not_or]
      exact ⟨hleft, hright⟩
    exact ⟨whenIssued_of_illFormed (i := .keydata dev b0 b1 b2 b3) ⟨hl, hinit⟩ hill _,
      whenIssued_of_illFormed (i := .reg dev v) ⟨hl, hinit⟩ hill _⟩

end Sys2Proof.Machine
end

section
/-! # What a read returns

A read of as many bytes as the block asks for returns exactly that many, or an error whose status is not 0, whoever
answers it (20_memory.md R52); then the key read and the register read by the answers of their transactions
(40_bus_transceiver.md R120, R123). -/

namespace Sys2Proof.Machine

/-- R52's two ways for a read of n bytes to return: `ok` with exactly n bytes, `err` with a status other than 0. -/
def ReadResult.IsOfLength (n : Nat) : ReadResult → Prop
  | .ok bytes => bytes.length = n
  | .err st => st ≠ 0

theorem ReadResult.isOfLength_one {r : ReadResult} (h : r.IsOfLength 1) :
    (∃ b, r = .ok [b]) ∨ ∃ e, e ≠ 0 ∧ r = .err e := by
  cases r with
  | ok bytes =>
    obtain ⟨b, rfl⟩ := List.length_eq_one_iff.mp h
    exact .inl ⟨b, rfl⟩
  | err e => exact .inr ⟨e, h, rfl⟩

section
variable {s : State} {n : Nat}

/-! ## A read the environment answers itself (20_memory.md R58 a) -/

theorem forcedRead_of_error {st : Byte} (hst : st ≠ 0) (n : Nat) (bytes : List Byte) (s : State) :
    forcedRead n st bytes s = (.err st, s) := if_pos hst

theorem forcedRead_of_short {bytes : List Byte} (hshort : bytes.length < n) (s : State) :
    forcedRead n 0 bytes s = (.err (freeNonzero s).1, (freeNonzero s).2) := by
  rw [forcedRead, if_neg (not_not.mpr rfl), if_pos hshort]

theorem forcedRead_of_enough {bytes : List Byte} (henough : n ≤ bytes.length) (s : State) :
    forcedRead n 0 bytes s = (.ok (bytes.take n), s) := by
  rw [forcedRead, if_neg (not_not.mpr rfl), if_neg (Nat.not_lt.mpr henough)]

theorem forcedRead_isOfLength (n : Nat) (st : Byte) (bytes : List Byte) (s : State) :
    (forcedRead n st bytes s).1.IsOfLength n := by
  by_cases hst : st = 0
  · subst hst
    obtain hshort | henough := Nat.lt_or_ge bytes.length n
    · rw [forcedRead_of_short hshort]
      exact freeNonzero_ne_zero s
    · rw [forcedRead_of_enough henough]
      exact List.length_take_of_le henough
  · rw [forcedRead_of_error hst]
    exact hst

/-- A read answered by the environment returns what its status and bytes make of it, and takes this one turn. -/
theorem busRead_forced {st : Byte} {bytes : List Byte} {ts : List Turn}
    (hturns : s.turns = ⟨none, none, .forced st bytes⟩ :: ts) (dev : BitVec 7) (n : Nat) :
    ∃ t, busRead dev n s = .returned (forcedRead n st bytes (s.withTurns ts)).1 t ∧
      AfterTransaction s t (.read dev n (forcedRead n st bytes (s.withTurns ts)).1) := by
  have hrun : busRead dev n s = readReturned dev n (forcedRead n st bytes (s.withTurns ts)) := by
    simp only [busRead, takeTurn, hturns]
    rfl
  obtain ⟨hblock, hlog, hresult, hrest⟩ := forcedRead_keeps n st bytes (s.withTurns ts)
  have hturn : SameBlock s (s.withTurns ts) := by constructor <;> rfl
  exact ⟨_, hrun, (hturn.trans hblock).trans (by constructor <;> rfl), by simp [hlog], by simp [hresult],
    by simp [hrest, hturns]⟩

/-! ## A read the reference responder answers (20_memory.md R66, R67) -/

/-- A peripheral has five bytes of key data, or a register's byte and filler after it. -/
theorem takeRead_isOfLength (hpos : 0 < n) (hn : n ≤ 5) (cfg : Config) (p : Periph) :
    (p.takeRead cfg n).1.IsOfLength n := by
  unfold Periph.takeRead
  split
  · exact (by decide : (2 : Byte) ≠ 0)
  · split
    · exact List.length_take_of_le hn
    · change (List.replicate (n - 1) _).length + 1 = n
      rw [List.length_replicate, Nat.sub_add_cancel hpos]

theorem respondRead_isOfLength (hpos : 0 < n) (hn : n ≤ 5) (dev : BitVec 7) (s : State) :
    (respondRead dev n s).1.IsOfLength n := by
  unfold respondRead
  split
  · exact (by decide : (2 : Byte) ≠ 0)
  · exact takeRead_isOfLength hpos hn s.cfg _

/-- Whoever answers, a read that returns delivers what was asked for or an error with its status (20_memory.md R52). -/
theorem busRead_isOfLength (hpos : 0 < n) (hn : n ≤ 5) {dev : BitVec 7} {r : ReadResult} {t : State}
    (hrun : busRead dev n s = .returned r t) : r.IsOfLength n := by
  unfold busRead at hrun
  split at hrun <;> cases hrun
  · exact forcedRead_isOfLength n _ _ _
  · exact respondRead_isOfLength hpos hn dev _

/-! ## Key reads and register reads by their transactions' answers -/

theorem AfterTransaction.sameBlock_withResult {t : State} {e : Transaction} (h : AfterTransaction s t e) (r : Result) :
    SameBlock s (t.withResult r) := h.block.trans (by constructor <;> rfl)

/-- S.RDKEYS shows the key data of the one reply (40_bus_transceiver.md R120). -/
theorem exec_sRdkeys_of_reply {h : Hand} {r : ReadResult} {t : State} (hr : s.Ready)
    (hread : busRead (devAddr s.cfg h) 5 s = .returned r t) :
    exec (.sRdkeys h) s = .next (t.withResult (.optScan (keyDataOf s.cfg r))) := by
  change execSRdkeys h s = _
  rw [execSRdkeys, whenAdmitted_of_ready hr, readKeys, hread]
  rfl

section
variable {h : Hand} {sel : Byte} {t : State}

/-- A select that failed ends the register read (40_bus_transceiver.md R123). -/
theorem readRegister_of_selectFailed {st : Byte} (hst : st ≠ 0)
    (hselect : busWrite (devAddr s.cfg h) [sel] s = .returned st t) : readRegister h sel s = .returned none t := by
  rw [readRegister, hselect, BusRun.returned_andThen, writeSucceeded, if_neg (by simpa using hst)]

/-- A select that succeeded is followed by the read, to the same device, of one byte (40_bus_transceiver.md R123). -/
theorem readRegister_of_selected (hselect : busWrite (devAddr s.cfg h) [sel] s = .returned 0 t) :
    readRegister h sel s = (busRead (devAddr s.cfg h) 1 t).andThen fun r u => .returned (registerByteOf r) u := by
  rw [readRegister, hselect, BusRun.returned_andThen, if_pos (by rfl)]

end

/-- What a register read has shown and logged, after a select that returned the status `st` (40_bus_transceiver.md R123):
nothing and the select alone, or what the 1-byte read returned and both transactions. -/
def RegisterReadShown (s t : State) (dev : BitVec 7) (sel st : Byte) : Prop :=
  (st ≠ 0 → t.result = .optByte none ∧ t.busLog = s.busLog ++ [.write dev [sel] st]) ∧
    (st = 0 →
      (∃ b, t.result = .optByte (some b) ∧
        t.busLog = s.busLog ++ [.write dev [sel] st, .read dev 1 (.ok [b])]) ∨
      ∃ e, e ≠ 0 ∧ t.result = .optByte none ∧
        t.busLog = s.busLog ++ [.write dev [sel] st, .read dev 1 (.err e)])

/-- An answered register read: the select, and behind a successful one the read. -/
theorem readRegister_returns (h : Hand) (sel : Byte) (ha : s.Answered 2) :
    ∃ v t st, readRegister h sel s = .returned v t ∧ SameBlock s t ∧ (∀ f, s.forcedStatus 0 = some f → st = f) ∧
      RegisterReadShown s (t.withResult (.optByte v)) (devAddr s.cfg h) sel st := by
  obtain ⟨st, s1, hselect, hs1, hforced⟩ :=
    busWrite_returns_forced (devAddr s.cfg h) [sel] (ha.mono (by decide : 1 ≤ 2))
  by_cases hst : st = 0
  · subst hst
    obtain ⟨r, t, hread, ht⟩ := busRead_returns (devAddr s.cfg h) 1 (ha.drop_one hs1.turns)
    have hlog : t.busLog = s.busLog ++ [.write (devAddr s.cfg h) [sel] 0, .read (devAddr s.cfg h) 1 r] := by
      rw [ht.busLog, hs1.busLog, List.append_assoc, List.singleton_append]
    refine ⟨registerByteOf r, t, 0, ?_, hs1.block.trans ht.block, hforced, fun hne => absurd rfl hne, fun _ => ?_⟩
    · rw [readRegister_of_selected hselect, hread, BusRun.returned_andThen]
    · obtain ⟨b, rfl⟩ | ⟨e, he, rfl⟩ := ReadResult.isOfLength_one (busRead_isOfLength (by decide) (by decide) hread)
      · exact .inl ⟨b, rfl, hlog⟩
      · exact .inr ⟨e, he, rfl, hlog⟩
  · exact ⟨none, s1, st, readRegister_of_selectFailed hst hselect, hs1.block, hforced,
      fun _ => ⟨rfl, hs1.busLog⟩, fun h0 => absurd h0 hst⟩

/-- An operation that shows the byte of one register read, on a ready block. -/
theorem whenAdmitted_readRegister_returns (hr : s.Ready) (ha : s.Answered 2) (h : Hand) (sel : Byte) :
    ∃ t st, whenAdmitted s (finish ((readRegister h sel s).andThen fun v s1 => .returned (.optByte v) s1)) = .next t ∧
      SameBlock s t ∧ (∀ f, s.forcedStatus 0 = some f → st = f) ∧
      RegisterReadShown s t (devAddr s.cfg h) sel st := by
  obtain ⟨v, t, st, hrun, hblock, hforced, hshown⟩ := readRegister_returns h sel ha
  refine ⟨t.withResult (.optByte v), st, ?_, hblock.trans (by constructor <;> rfl), hforced, hshown⟩
  rw [whenAdmitted_of_ready hr, hrun, BusRun.returned_andThen, finish_returned]

end

end Sys2Proof.Machine
end

section
/-! # The statements of 40_bus_transceiver.md -/

namespace Sys2Proof.Machine

/-- Settles O38: an answered read returns some reply, and the operation shows its key data. -/
theorem readKeysReturnsTheReply : Obligations.ReadKeysReturnsTheReply := fun s h hr ha => by
  obtain ⟨r, t, hread, ht⟩ := busRead_returns (devAddr s.cfg h) 5 ha
  exact ⟨_, r, exec_sRdkeys_of_reply hr hread, rfl, ht.sameBlock_withResult _, ht.busLog⟩

/-- Settles O39: the status is looked at first, then the number of bytes, then the tag. -/
theorem readKeysUnderEveryAnswer : Obligations.ReadKeysUnderEveryAnswer := fun s h st bytes ts hr hturns => by
  obtain ⟨t, hread, ht⟩ := busRead_forced hturns (devAddr s.cfg h) 5
  have hrest : t.turns = ts := by rw [ht.turns, hturns, List.drop_one, List.tail_cons]
  refine ⟨_, exec_sRdkeys_of_reply hr hread, ht.sameBlock_withResult _, hrest, ?error, ?short, ?whole⟩
  case error =>
    intro hst
    rw [forcedRead_of_error hst] at ht ⊢
    exact ⟨rfl, ht.busLog⟩
  case short =>
    rintro rfl hshort
    rw [forcedRead_of_short hshort] at ht ⊢
    exact ⟨rfl, _, freeNonzero_ne_zero _, ht.busLog⟩
  case whole =>
    rintro tag b0 b1 b2 b3 rfl rfl
    rw [forcedRead_of_enough (by rfl)] at ht ⊢
    refine ⟨ht.busLog, fun htag => ?_, ?_⟩
    · exact congrArg Result.optScan (keyDataOf_wrongTag htag b0 b1 b2 b3)
    · rintro rfl
      exact congrArg Result.optScan (keyDataOf_tagged s.cfg b0 b1 b2 b3)

/-- Settles O41: each of the three is the register read of its select byte. -/
theorem registerReadsSelectThenRead : Obligations.RegisterReadsSelectThenRead := fun s h i sel hr ha hi => by
  obtain ⟨rfl, rfl⟩ | ⟨rfl, rfl⟩ | ⟨rfl, rfl⟩ := hi
  · exact whenAdmitted_readRegister_returns hr ha h s.cfg.cmdVersion
  · exact whenAdmitted_readRegister_returns hr ha h s.cfg.cmdKeyscanInterval
  · exact whenAdmitted_readRegister_returns hr ha h s.cfg.cmdLedSpiFrequency

end Sys2Proof.Machine
end

section
/-! # The event iterator

A key's state is a bit of its global bank's byte, so a bank whose byte did not change has no changed key and may be skipped
whole. Therefore the loop of NEXTEV finds the first changed key from where it stands (41_key_scan_edge.md R142), which is
the head of the events still to come. -/

namespace Sys2Proof.Machine

/-! ## Keys by their global bank (30_encoding.md R90) -/

theorem keyGlobalBank_toNat (k : BitVec 6) : (keyGlobalBank k).toNat = k.toNat / 8 := by
  rw [keyGlobalBank, BitVec.extractLsb'_toNat, Nat.shiftRight_eq_div_pow]
  omega

/-- The byte of a key's global bank is its bank of its hand's word. -/
theorem globalBank_keyGlobalBank (p : Pair Scan) (k : BitVec 6) :
    globalBank p (keyGlobalBank k) = scanBank (p.get (keyHand k)) (keyBank k) := by
  have hhand : (keyGlobalBank k).getLsbD 2 = k.getLsbD 5 := by
    rw [keyGlobalBank]
    decide +revert +kernel
  have hbank : (keyGlobalBank k).extractLsb' 0 2 = keyBank k := by
    rw [keyGlobalBank, keyBank]
    decide +revert +kernel
  rw [globalBank, hhand, hbank, keyHand]

theorem keybit_eq_globalBank (p : Pair Scan) (k : BitVec 6) :
    keybit p k = (globalBank p (keyGlobalBank k)).getLsbD (keyBitpos k).toNat := by
  rw [globalBank_keyGlobalBank]
  exact (keybitIsTheBitOfItsBank p k).1

/-- A key depends on its own hand's word alone. -/
theorem keybit_congr {p q : Pair Scan} {k : BitVec 6} (h : p.get (keyHand k) = q.get (keyHand k)) :
    keybit p k = keybit q k := by
  rw [keybit, h, keybit]

section
variable {curr prev : Pair Scan} {pos mid : Nat}

theorem keyChanged_iff {k : BitVec 6} : keyChanged curr prev k = true ↔ keybit curr k ≠ keybit prev k := bne_iff_ne

/-! ## Stretches without a changed key -/

variable (curr prev) in
/-- No key from `pos` up to below `mid` differs between the two snapshots. -/
def UnchangedBetween (pos mid : Nat) : Prop :=
  ∀ k : BitVec 6, pos ≤ k.toNat → k.toNat < mid → keybit curr k = keybit prev k

theorem UnchangedBetween.trans {stop : Nat} (h : UnchangedBetween curr prev pos mid)
    (h' : UnchangedBetween curr prev mid stop) : UnchangedBetween curr prev pos stop := fun k hlow hhigh => by
  obtain hk | hk := Nat.lt_or_ge k.toNat mid
  · exact h k hlow hk
  · exact h' k hk hhigh

/-- A bank that is skipped holds no changed key. -/
theorem unchangedBetween_of_atUnchangedBank (hpos : pos < 64)
    (h : atUnchangedBank curr prev (BitVec.ofNat 6 pos) = true) : UnchangedBetween curr prev pos (pos + 8) := by
  intro k hlow hhigh
  have hfirst : 8 ∣ pos := dvd_of_atUnchangedBank h
  obtain ⟨-, hbyte⟩ := Bool.and_eq_true_iff.mp h
  have hbank : keyGlobalBank k = keyGlobalBank (BitVec.ofNat 6 pos) := by
    refine BitVec.eq_of_toNat_eq ?_
    rw [keyGlobalBank_toNat, keyGlobalBank_toNat, BitVec.toNat_ofNat]
    omega
  rw [keybit_eq_globalBank, keybit_eq_globalBank prev, hbank, beq_iff_eq.mp hbyte]

/-- A single key that did not change. -/
theorem unchangedBetween_succ (h : ¬ keyChanged curr prev (BitVec.ofNat 6 pos) = true) :
    UnchangedBetween curr prev pos (pos + 1) := fun k hlow hhigh => by
  obtain rfl : pos = k.toNat := Nat.le_antisymm hlow (Nat.le_of_lt_succ hhigh)
  rwa [BitVec.ofNat_toNat, BitVec.setWidth_eq, keyChanged_iff, not_ne_iff] at h

/-! ## The loop of NEXTEV (R142) -/

variable (curr prev) in
/-- From `pos` the loop has found the first changed key and stands behind it, or has found none and stands at 64. -/
def FindsFirstChange (pos : Nat) (found : Nat × Option KeyEvent) : Prop :=
  (∃ k : BitVec 6, pos ≤ k.toNat ∧ keybit curr k ≠ keybit prev k ∧ UnchangedBetween curr prev pos k.toNat ∧
    found = (k.toNat + 1, some (keyEvent curr prev k))) ∨
  (UnchangedBetween curr prev pos 64 ∧ found = (64, none))

/-- Keys without a change may be passed over first. -/
theorem FindsFirstChange.of_unchanged {found : Nat × Option KeyEvent} (hle : pos ≤ mid)
    (hskip : UnchangedBetween curr prev pos mid) (h : FindsFirstChange curr prev mid found) :
    FindsFirstChange curr prev pos found := by
  obtain ⟨k, hlow, hchanged, hbefore, hfound⟩ | ⟨hrest, hfound⟩ := h
  · exact .inl ⟨k, hle.trans hlow, hchanged, hskip.trans hbefore, hfound⟩
  · exact .inr ⟨hskip.trans hrest, hfound⟩

/-- With fuel for every key that is left the loop finds the first changed one. -/
theorem nextEventFrom_findsFirstChange {fuel : Nat} (hpos : pos ≤ 64) (hfuel : 64 ≤ fuel + pos) :
    FindsFirstChange curr prev pos (nextEventFrom curr prev fuel pos) := by
  induction fuel generalizing pos with
  | zero =>
    obtain rfl : pos = 64 := by omega
    exact .inr ⟨fun k hlow hhigh => by omega, rfl⟩
  | succ fuel ih =>
    rw [nextEventFrom]
    split
    next hlt =>
      split
      next hskip =>
        have hfirst : 8 ∣ pos := dvd_of_atUnchangedBank hskip
        exact .of_unchanged (by omega) (unchangedBetween_of_atUnchangedBank hlt hskip) (ih (by omega) (by omega))
      next =>
        split
        next hchanged =>
          have hk : (BitVec.ofNat 6 pos).toNat = pos := Nat.mod_eq_of_lt hlt
          refine .inl ⟨BitVec.ofNat 6 pos, hk.ge, keyChanged_iff.mp hchanged, fun k hlow hhigh => ?_, by rw [hk]⟩
          omega
        next hsame => exact .of_unchanged (by omega) (unchangedBetween_succ hsame) (ih (by omega) (by omega))
    next hend =>
      obtain rfl : pos = 64 := by omega
      exact .inr ⟨fun k hlow hhigh => by omega, rfl⟩

/-! ## The events of a cycle by membership and by order (R141, R144) -/

variable (curr prev) in
/-- The event of key k, if the key changed. -/
def eventAt (k : BitVec 6) : Option KeyEvent :=
  if keyChanged curr prev k then some (keyEvent curr prev k) else none

theorem eventAt_eq_some_iff {k : BitVec 6} {e : KeyEvent} :
    eventAt curr prev k = some e ↔ keybit curr k ≠ keybit prev k ∧ e = keyEvent curr prev k := by
  rw [eventAt, Option.ite_none_right_eq_some, keyChanged_iff, Option.some_inj, eq_comm (a := e)]

theorem scanEvents_eq (curr prev : Pair Scan) :
    scanEvents curr prev = (List.range 64).filterMap fun k => eventAt curr prev (BitVec.ofNat 6 k) := rfl

theorem mem_scanEvents {e : KeyEvent} : e ∈ scanEvents curr prev ↔
    keybit curr e.address ≠ keybit prev e.address ∧ e = keyEvent curr prev e.address := by
  rw [scanEvents_eq, List.mem_filterMap]
  constructor
  · rintro ⟨k, -, hk⟩
    obtain ⟨hchanged, rfl⟩ := eventAt_eq_some_iff.mp hk
    exact ⟨hchanged, rfl⟩
  · intro he
    refine ⟨e.address.toNat, List.mem_range.mpr e.address.isLt, ?_⟩
    rwa [BitVec.ofNat_toNat, BitVec.setWidth_eq, eventAt_eq_some_iff]

theorem scanEvents_sorted (curr prev : Pair Scan) :
    (scanEvents curr prev).Pairwise fun a b => a.address.toNat < b.address.toNat := by
  rw [scanEvents_eq, List.pairwise_filterMap]
  refine List.pairwise_lt_range.imp_of_mem fun {i j} hi hj hlt a ha b hb => ?_
  obtain ⟨-, rfl⟩ := eventAt_eq_some_iff.mp ha
  obtain ⟨-, rfl⟩ := eventAt_eq_some_iff.mp hb
  change (BitVec.ofNat 6 i).toNat < (BitVec.ofNat 6 j).toNat
  rw [List.mem_range] at hi hj
  rwa [BitVec.toNat_ofNat, BitVec.toNat_ofNat, Nat.mod_eq_of_lt hi, Nat.mod_eq_of_lt hj]

/-! ## The events still to come (R143) -/

variable (curr prev) in
/-- The events of the cycle whose keys stand at `pos` or after it, in ascending order. -/
def eventsFrom (pos : Nat) : List KeyEvent :=
  (List.range' pos (64 - pos)).filterMap fun k => eventAt curr prev (BitVec.ofNat 6 k)

theorem eventsFrom_zero (curr prev : Pair Scan) : eventsFrom curr prev 0 = scanEvents curr prev := by
  rw [scanEvents_eq, eventsFrom, List.range_eq_range']

/-- No event comes of keys that did not change. -/
theorem eventsFrom_of_unchanged (hle : pos ≤ mid) (hmid : mid ≤ 64) (h : UnchangedBetween curr prev pos mid) :
    eventsFrom curr prev pos = eventsFrom curr prev mid := by
  have hsplit : List.range' pos (64 - pos) = List.range' pos (mid - pos) ++ List.range' mid (64 - mid) := by
    rw [show 64 - pos = (mid - pos) + (64 - mid) by omega, ← List.range'_append_1, Nat.add_sub_cancel' hle]
  have hnone : (List.range' pos (mid - pos)).filterMap (fun k => eventAt curr prev (BitVec.ofNat 6 k)) = [] := by
    refine List.filterMap_eq_nil_iff.mpr fun k hk => ?_
    obtain ⟨hlow, hhigh⟩ := List.mem_range'_1.mp hk
    have htoNat : (BitVec.ofNat 6 k).toNat = k := Nat.mod_eq_of_lt (by omega)
    exact if_neg fun hchanged => keyChanged_iff.mp hchanged (h _ (by omega) (by omega))
  rw [eventsFrom, hsplit, List.filterMap_append, hnone, List.nil_append, eventsFrom]

/-- A changed key's event is followed by those of the keys behind it. -/
theorem eventsFrom_of_changed {k : BitVec 6} (h : keybit curr k ≠ keybit prev k) :
    eventsFrom curr prev k.toNat = keyEvent curr prev k :: eventsFrom curr prev (k.toNat + 1) := by
  have hsplit : List.range' k.toNat (64 - k.toNat) = k.toNat :: List.range' (k.toNat + 1) (64 - (k.toNat + 1)) := by
    rw [show 64 - k.toNat = (64 - (k.toNat + 1)) + 1 by omega, List.range'_succ]
  have hsome : eventAt curr prev (BitVec.ofNat 6 k.toNat) = some (keyEvent curr prev k) := by
    rw [BitVec.ofNat_toNat, BitVec.setWidth_eq]
    exact eventAt_eq_some_iff.mpr ⟨h, rfl⟩
  rw [eventsFrom, hsplit]
  exact List.filterMap_cons_some hsome

end

/-! ## NEXTEV -/

section
variable {s : State}

/-- NEXTEV on a ready block from a position up to 64: the first changed key's event, or none and the end. -/
theorem exec_nextev_cases (hr : s.Ready) (hpos : s.evPos.toNat ≤ 64) :
    (∃ k : BitVec 6, s.evPos.toNat ≤ k.toNat ∧ keybit s.currScan k ≠ keybit s.prevScan k ∧
      UnchangedBetween s.currScan s.prevScan s.evPos.toNat k.toNat ∧
      exec .nextev s = .next ((s.withEvPos (k.setWidth 7 + 1)).withResult
        (.optEvent (some (keyEvent s.currScan s.prevScan k))))) ∨
    (UnchangedBetween s.currScan s.prevScan s.evPos.toNat 64 ∧
      exec .nextev s = .next ((s.withEvPos 64).withResult (.optEvent none))) := by
  have hexec : exec .nextev s =
      .next ((s.withEvPos (BitVec.ofNat 7 (nextEvent s).1)).withResult (.optEvent (nextEvent s).2)) :=
    whenAdmitted_of_ready hr _
  have hfinds : FindsFirstChange s.currScan s.prevScan s.evPos.toNat (nextEvent s) :=
    nextEventFrom_findsFirstChange hpos (Nat.le_add_right 64 _)
  obtain ⟨k, hlow, hchanged, hbefore, hfound⟩ | ⟨hrest, hfound⟩ := hfinds
  · refine .inl ⟨k, hlow, hchanged, hbefore, ?_⟩
    rw [hexec, hfound, BitVec.ofNat_add, BitVec.ofNat_toNat]
    rfl
  · refine .inr ⟨hrest, ?_⟩
    rw [hexec, hfound]
    rfl

/-- NEXTEV on a ready block takes the head of the events still to come; at their end the iterator stands at 64. -/
theorem exec_nextev_takes_head (hr : s.Ready) (hpos : s.evPos.toNat ≤ 64) {events : List KeyEvent}
    (hevents : eventsFrom s.currScan s.prevScan s.evPos.toNat = events) :
    ∃ p : BitVec 7, exec .nextev s = .next ((s.withEvPos p).withResult (.optEvent events.head?)) ∧ p.toNat ≤ 64 ∧
      eventsFrom s.currScan s.prevScan p.toNat = events.tail ∧ (events = [] → p = 64) := by
  subst hevents
  obtain ⟨k, hlow, hchanged, hbefore, hexec⟩ | ⟨hrest, hexec⟩ := exec_nextev_cases hr hpos
  · have hp : (k.setWidth 7 + 1).toNat = k.toNat + 1 := by bv_omega
    rw [eventsFrom_of_unchanged hlow k.isLt.le hbefore, eventsFrom_of_changed hchanged]
    exact ⟨k.setWidth 7 + 1, hexec, hp ▸ k.isLt, by rw [hp, List.tail_cons], fun hnil => nomatch hnil⟩
  · rw [eventsFrom_of_unchanged hpos le_rfl hrest]
    exact ⟨64, hexec, le_rfl, rfl, fun _ => rfl⟩

/-- NEXTEV again and again: the n-th call returns the n-th of the events still to come. -/
theorem execAll_nextev (hr : s.Ready) (hpos : s.evPos.toNat ≤ 64) {events : List KeyEvent}
    (hevents : eventsFrom s.currScan s.prevScan s.evPos.toNat = events) {n : Nat} (hn : n ≤ events.length) :
    ∃ t, execAll (List.replicate (n + 1) .nextev) s = .next t ∧ t.result = .optEvent events[n]? ∧
      t.currScan = s.currScan ∧ t.prevScan = s.prevScan ∧ (n = events.length → t.evPos = 64) := by
  induction n generalizing s events with
  | zero =>
    obtain ⟨p, hexec, -, -, hend⟩ := exec_nextev_takes_head hr hpos hevents
    refine ⟨_, execAll_cons hexec [], ?_, rfl, rfl, fun hempty => hend (List.length_eq_zero_iff.mp hempty.symm)⟩
    rw [State.withResult_result, List.head?_eq_getElem?]
  | succ n ih =>
    obtain ⟨p, hexec, hp, htail, -⟩ := exec_nextev_takes_head hr hpos hevents
    have hlength : events.tail.length = events.length - 1 := List.length_tail
    obtain ⟨t, hrun, hresult, hcurr, hprev, hend⟩ := ih
      (s := (s.withEvPos p).withResult (.optEvent events.head?)) hr hp htail (by omega)
    rw [List.getElem?_tail] at hresult
    refine ⟨t, ?_, hresult, hcurr, hprev, fun hall => hend (by omega)⟩
    rw [List.replicate_succ, execAll_cons hexec, hrun]

end

end Sys2Proof.Machine
end

section
/-! # A scan cycle

SCANM is two key reads (41_key_scan_edge.md R140): what the whole operation leaves, from what the two reads return, and then
both reads by whoever answers them. -/

namespace Sys2Proof.Machine

/-- The block after a scan cycle whose left and right reads delivered these words or nothing (R140): the snapshots saved,
each hand's replaced by what its read delivered, the iterator at its start. -/
def State.scanned (s : State) (d0 d1 : Option Scan) : State :=
  ((s.withPrevScan s.currScan).withCurrScan
    ⟨d0.getD s.currScan.left, d1.getD s.currScan.right⟩).withEvPos 0

section
variable {s s1 s2 : State}

/-! ## The whole operation from its two reads -/

/-- A hand's snapshot is replaced only by what a read delivered. -/
theorem storeScan_eq (h : Hand) (d : Option Scan) (s : State) :
    storeScan h d s = s.withCurrScan (s.currScan.set h (d.getD (s.currScan.get h))) := by
  cases d with
  | none =>
    rw [Option.getD_none, Pair.set_get]
    rfl
  | some d => rfl

theorem storeScan_busLog (h : Hand) (d : Option Scan) (s : State) : (storeScan h d s).busLog = s.busLog := by
  rw [storeScan_eq, State.withCurrScan_busLog]

theorem storeScan_turns (h : Hand) (d : Option Scan) (s : State) : (storeScan h d s).turns = s.turns := by
  rw [storeScan_eq, State.withCurrScan_turns]

theorem storeScan_periph (h : Hand) (d : Option Scan) (s : State) : (storeScan h d s).periph = s.periph := by
  rw [storeScan_eq, State.withCurrScan_periph]

theorem SameBlock.withCurrScan (h : SameBlock s s1) (v : Pair Scan) :
    SameBlock (s.withCurrScan v) (s1.withCurrScan v) := { h with currScan := rfl }

theorem SameBlock.withEvPos (h : SameBlock s s1) (v : BitVec 7) : SameBlock (s.withEvPos v) (s1.withEvPos v) :=
  { h with evPos := rfl }

/-- SCANM on a ready block whose two key reads return: the right hand is read whatever the left gave. -/
theorem exec_scanm_of_reads {d0 d1 : Option Scan} (hr : s.Ready)
    (hleft : readKeys .left (s.withPrevScan s.currScan) = .returned d0 s1)
    (hs1 : SameBlock (s.withPrevScan s.currScan) s1)
    (hright : readKeys .right (storeScan .left d0 s1) = .returned d1 s2)
    (hs2 : SameBlock (storeScan .left d0 s1) s2) :
    ∃ t, exec .scanm s = .next t ∧ SameBlock (s.scanned d0 d1) t ∧ t.result = .none ∧ t.busLog = s2.busLog ∧
      t.periph = s2.periph := by
  have hexec : exec .scanm s = .next (((storeScan .right d1 s2).withEvPos 0).withResult .none) := by
    change execScanm s = _
    rw [execScanm, whenAdmitted_of_ready hr, scanMatrix, hleft, BusRun.returned_andThen, hright]
    rfl
  rw [storeScan_eq] at hs2 hexec
  have hcurr1 : s1.currScan = s.currScan := hs1.currScan
  have hcurr2 : s2.currScan = s1.currScan.set .left (d0.getD (s1.currScan.get .left)) := hs2.currScan
  refine ⟨_, hexec, ?_, rfl, rfl, rfl⟩
  rw [hcurr1] at hcurr2 hs2
  rw [hcurr2]
  have hboth := ((hs1.withCurrScan _).trans hs2).withCurrScan ⟨d0.getD s.currScan.left, d1.getD s.currScan.right⟩
  exact (hboth.withEvPos 0).trans (by constructor <;> rfl)

/-! ## Two answered reads (40_bus_transceiver.md R120) -/

theorem readKeys_returns (h : Hand) (ha : s.Answered 1) : ∃ r t, readKeys h s = .returned (keyDataOf s.cfg r) t ∧
    AfterTransaction s t (.read (devAddr s.cfg h) 5 r) := by
  obtain ⟨r, t, hread, ht⟩ := busRead_returns (devAddr s.cfg h) 5 ha
  exact ⟨r, t, by rw [readKeys, hread, BusRun.returned_andThen], ht⟩

theorem exec_scanm_answered (hr : s.Ready) (ha : s.Answered 2) : ∃ t r0 r1, exec .scanm s = .next t ∧
    SameBlock (s.scanned (keyDataOf s.cfg r0) (keyDataOf s.cfg r1)) t ∧ t.result = .none ∧
    t.busLog = s.busLog ++ [.read (devAddr s.cfg .left) 5 r0, .read (devAddr s.cfg .right) 5 r1] := by
  obtain ⟨r0, s1, hleft, hs1⟩ :=
    readKeys_returns (s := s.withPrevScan s.currScan) .left (State.Answered.mono ha (by decide : 1 ≤ 2))
  have hcfg1 : s1.cfg = s.cfg := hs1.block.cfg
  have hlog1 : s1.busLog = s.busLog ++ [.read (devAddr s.cfg .left) 5 r0] := hs1.busLog
  obtain ⟨r1, s2, hright, hs2⟩ := readKeys_returns (s := storeScan .left (keyDataOf s.cfg r0) s1) .right
    (ha.drop_one ((storeScan_turns _ _ s1).trans hs1.turns))
  rw [storeScan_cfg, hcfg1] at hright hs2
  obtain ⟨t, hexec, hblock, hresult, hlog, -⟩ := exec_scanm_of_reads hr hleft hs1.block hright hs2.block
  refine ⟨t, r0, r1, hexec, hblock, hresult, ?_⟩
  rw [hlog, hs2.busLog, storeScan_busLog, hlog1, List.append_assoc, List.singleton_append]

/-! ## Two reads that the reference responders answer (20_memory.md R66, R67) -/

theorem readKeys_unscripted (hc : configOk s.cfg = true) (hu : s.Unscripted) (h : Hand) :
    ∃ t, readKeys h s = .returned (keyDataOf s.cfg ((s.periph.get h).takeRead s.cfg 5).1) t ∧ SameBlock s t ∧
      t.Unscripted ∧ t.periph = s.periph.set h ((s.periph.get h).takeRead s.cfg 5).2 := by
  refine ⟨(s.withPeripheral h ((s.periph.get h).takeRead s.cfg 5).2).logged
    (.read (devAddr s.cfg h) 5 ((s.periph.get h).takeRead s.cfg 5).1), ?_, by constructor <;> rfl, hu, rfl⟩
  rw [readKeys, busRead_unscripted hu, respondRead_devAddr hc, readReturned, BusRun.returned_andThen]

/-- Each hand has the key data of its own peripheral's reply, or keeps its snapshot, and each peripheral is as its own read
has left it. -/
theorem exec_scanm_unscripted (hr : s.Ready) (hu : s.Unscripted) : ∃ t, exec .scanm s = .next t ∧ t.Ready ∧
    t.prevScan = s.currScan ∧ t.evPos = 0 ∧ ∀ h,
      t.currScan.get h = (keyDataOf s.cfg ((s.periph.get h).takeRead s.cfg 5).1).getD (s.currScan.get h) ∧
      t.periph.get h = ((s.periph.get h).takeRead s.cfg 5).2 := by
  have hok : configOk s.cfg = true := hr.1.1
  obtain ⟨s1, hleft, hs1, hu1, hp1⟩ := readKeys_unscripted (s := s.withPrevScan s.currScan) hok hu .left
  have hcfg1 : s1.cfg = s.cfg := hs1.cfg
  obtain ⟨s2, hright, hs2, -, hp2⟩ := readKeys_unscripted
    (s := storeScan .left (keyDataOf s.cfg (s.periph.left.takeRead s.cfg 5).1) s1) (by rwa [storeScan_cfg, hcfg1])
    ((storeScan_turns _ _ s1).trans hu1) .right
  rw [storeScan_cfg, storeScan_periph, hcfg1, hp1] at hright hp2
  obtain ⟨t, hexec, hblock, -, -, hperiph⟩ := exec_scanm_of_reads hr hleft hs1 hright hs2
  obtain ⟨⟨hok, hhung, hhalted⟩, hinit⟩ := hr
  have hready : t.Ready := ⟨⟨hblock.cfg ▸ hok, hblock.hung.trans hhung, hblock.halted.trans hhalted⟩,
    hblock.initialized.trans hinit⟩
  refine ⟨t, hexec, hready, hblock.prevScan, hblock.evPos, fun h => ?_⟩
  rw [hblock.currScan, hperiph, hp2]
  cases h <;> exact ⟨rfl, rfl⟩

end

end Sys2Proof.Machine
end

section
/-! # The statements of 41_key_scan_edge.md -/

namespace Sys2Proof.Machine

/-- Settles O31: the two answered reads, in whose block each snapshot is what its own read delivered. -/
theorem scanMatrixTakesBothSnapshots : Obligations.ScanMatrixTakesBothSnapshots := fun s hr ha => by
  obtain ⟨t, r0, r1, hexec, hblock, hresult, hlog⟩ := exec_scanm_answered hr ha
  have hcurr : t.currScan = ⟨(keyDataOf s.cfg r0).getD s.currScan.left, (keyDataOf s.cfg r1).getD s.currScan.right⟩ :=
    hblock.currScan
  have hprev : t.prevScan = s.currScan := hblock.prevScan
  have hpos : t.evPos = 0 := hblock.evPos
  refine ⟨t, r0, r1, hexec, hprev, congrArg Pair.left hcurr, congrArg Pair.right hcurr, hpos, hresult, hlog, ?_⟩
  rw [hprev, hcurr, hpos]
  exact hblock

/-- Settles O32: a failing peripheral delivers no key data, so its hand keeps the snapshot and none of its keys changes. -/
theorem failedReadsYieldNoEvents : Obligations.FailedReadsYieldNoEvents := fun s h hr hu hfail => by
  obtain ⟨t, hexec, hready, hprev, hpos, hhands⟩ := exec_scanm_unscripted hr hu
  have hkept : ∀ h', (s.periph.get h').fail = true →
      t.currScan.get h' = s.currScan.get h' ∧ t.periph.get h' = s.periph.get h' := fun h' hf => by
    have hread := hhands h'
    rwa [takeRead_fail _ _ hf, keyDataOf_err, Option.getD_none] at hread
  obtain ⟨hcurr, hperiph⟩ := hkept h hfail
  have hsame : ∀ k, keyHand k = h → keybit t.currScan k = keybit t.prevScan k := fun k hk =>
    keybit_congr (by rw [hk, hcurr, hprev])
  refine ⟨t, hexec, hcurr, hprev, hperiph, hsame, fun e he hhand => (mem_scanEvents.mp he).1 (hsame _ hhand),
    fun hall => ?_⟩
  have hscan : t.currScan = s.currScan := Pair.ext_get (hkept _ (hall .left)).1 (hkept _ (hall .right)).1
  have hperiphs : t.periph = s.periph := Pair.ext_get (hkept _ (hall .left)).2 (hkept _ (hall .right)).2
  refine ⟨hscan, hperiphs, ?_⟩
  obtain ⟨k, -, hchanged, -⟩ | ⟨-, hnone⟩ := exec_nextev_cases hready (hpos ▸ by decide)
  · exact absurd (by rw [hscan, hprev]) hchanged
  · exact ⟨_, hnone, rfl, rfl⟩

/-- Settles O35, by the cases of NEXTEV. -/
theorem nextEventFindsTheFirstChangedKey : Obligations.NextEventFindsTheFirstChangedKey := fun s hr hpos => by
  obtain hfound | ⟨hrest, hexec⟩ := exec_nextev_cases hr hpos
  · exact .inl hfound
  · exact .inr ⟨fun k hlow => hrest k hlow k.isLt, hexec⟩

/-- Settles O36: an event carries the key's two states, and the keys are gone through in ascending order. -/
theorem eventsAreTheChangedKeysInOrder : Obligations.EventsAreTheChangedKeysInOrder := fun curr prev => by
  refine ⟨fun ⟨k, previous, current⟩ => ?_, scanEvents_sorted curr prev⟩
  rw [mem_scanEvents, keyEvent, KeyEvent.mk.injEq, eq_self, true_and]

/-- Settles O37, by induction on the number of calls, each of which takes the head of the events still to come. -/
theorem drainReturnsTheEventsOfTheCycle : Obligations.DrainReturnsTheEventsOfTheCycle := fun s hr hpos n hn => by
  have hstart : s.evPos.toNat = 0 := congrArg BitVec.toNat hpos
  exact execAll_nextev hr (by omega) (by rw [hstart, eventsFrom_zero]) hn

end Sys2Proof.Machine
end

section
/-! # LED addresses, the gamma table and the elapsed time

The hand and index of an LED address name it (30_encoding.md R91), the default gamma table is its formula (42_led_sync.md
R176), and the rate limiter's difference is the one of R167, also across a wrap of the counter. -/

namespace Sys2Proof.Machine

/-! ## LED addresses (30_encoding.md R91) -/

/-- The LedAddr of LED i of hand h. -/
def assembleLed (h : Hand) (i : BitVec 5) : BitVec 6 := handBit h ++ i

theorem ledHand_assembleLed (h : Hand) (i : BitVec 5) : ledHand (assembleLed h i) = h := by
  cases h <;> unfold ledHand assembleLed <;> decide +revert +kernel

theorem ledIndex_assembleLed (h : Hand) (i : BitVec 5) : ledIndex (assembleLed h i) = i := by
  cases h <;> unfold ledIndex assembleLed <;> decide +revert +kernel

theorem assembleLed_parts (l : BitVec 6) : assembleLed (ledHand l) (ledIndex l) = l := by
  rw [assembleLed, ledHand, handBit_handOfBit, ledIndex]
  decide +revert +kernel

/-! ## The default gamma table (42_led_sync.md R176) -/

theorem gammaOf_default (c : Byte) :
    gammaOf Config.default c = BitVec.ofNat 8 ((c.toNat * c.toNat + 127) / 255) := by
  simp [gammaOf, Config.default, Config.gammaDefault]

/-- The formula's values are bytes, so that no entry of the table is cut off. -/
theorem gammaDefault_lt (c : Byte) : (c.toNat * c.toNat + 127) / 255 < 2 ^ 8 := by
  have hc : c.toNat ≤ 255 := Nat.le_of_lt_succ c.isLt
  have hsquare : c.toNat * c.toNat ≤ 255 * 255 := Nat.mul_le_mul hc hc
  omega

/-! ## The elapsed time (42_led_sync.md R167) -/

/-- With a time stamp in range the difference is taken after one modulus is added. -/
theorem elapsedMs_of_lt {cfg : Config} {last : Nat} (hlast : last < 2 ^ cfg.timerBits) (now : Nat) :
    elapsedMs cfg now last = (now + 2 ^ cfg.timerBits - last) % 2 ^ cfg.timerBits := by
  rw [elapsedMs, Nat.mod_eq_of_lt hlast, ← Nat.add_sub_assoc hlast.le]

/-- The time elapsed since a sample is the time that has passed, modulo the counter's modulus. -/
theorem elapsedMs_timeSample (cfg : Config) (ms d : Nat) :
    elapsedMs cfg (timeSample cfg (ms + d)) (timeSample cfg ms) = d % 2 ^ cfg.timerBits := by
  have hlast : timeSample cfg ms < 2 ^ cfg.timerBits := timeSample_lt cfg ms
  rw [elapsedMs_of_lt hlast, Nat.add_sub_assoc hlast.le, timeSample, Nat.mod_add_mod]
  have hsplit : ms + d + (2 ^ cfg.timerBits - timeSample cfg ms) =
      d + 2 ^ cfg.timerBits * (ms / 2 ^ cfg.timerBits + 1) := by
    have hdiv : 2 ^ cfg.timerBits * (ms / 2 ^ cfg.timerBits) + timeSample cfg ms = ms := Nat.div_add_mod ms _
    rw [Nat.mul_add, Nat.mul_one]
    omega
  rw [hsplit, Nat.add_mul_mod_self_left]

theorem flushDue_eq_true {cfg : Config} {now last : Nat} :
    flushDue cfg now last = true ↔ cfg.ledFlushIntervalMs ≤ elapsedMs cfg now last := decide_eq_true_iff

theorem flushDue_eq_false {cfg : Config} {now last : Nat} :
    flushDue cfg now last = false ↔ elapsedMs cfg now last < cfg.ledFlushIntervalMs := by
  rw [← Bool.not_eq_true, flushDue_eq_true, Nat.not_le]

end Sys2Proof.Machine
end

section
/-! # The frame buffer and its frames

What storing a colour, setting it and filling a hand leave in the frame buffer and in the dirty bits (42_led_sync.md R160,
R163, R164), and what the frame that goes with a write of the frame buffer shows on a healthy peripheral. -/

namespace Sys2Proof

theorem Pair.set_set {α : Type} (p : Pair α) (h : Hand) (v w : α) : (p.set h v).set h w = p.set h w := by
  cases h <;> rfl

namespace Machine

section
variable {s t : State}

/-! ## The same block -/

theorem SameBlock.withFb (hb : SameBlock s t) (v : Pair (Vector Color 32)) : SameBlock (s.withFb v) (t.withFb v) :=
  { hb with fb := rfl }

theorem SameBlock.withDirty (hb : SameBlock s t) (v : Pair (BitVec 4)) : SameBlock (s.withDirty v) (t.withDirty v) :=
  { hb with dirty := rfl }

theorem SameBlock.withCursor (hb : SameBlock s t) (v : Pair (BitVec 2)) :
    SameBlock (s.withCursor v) (t.withCursor v) := { hb with cursor := rfl }

theorem SameBlock.withResult (hb : SameBlock s t) (r : Result) : SameBlock s (t.withResult r) :=
  hb.trans (by constructor <;> rfl)

theorem SameBlock.ready (hb : SameBlock s t) (hr : s.Ready) : t.Ready := by
  obtain ⟨⟨hok, hhung, hhalted⟩, hinit⟩ := hr
  exact ⟨⟨hb.cfg ▸ hok, hb.hung.trans hhung, hb.halted.trans hhalted⟩, hb.initialized.trans hinit⟩

end

/-! ## Writes of the frame buffer and of the dirty bits -/

/-- One entry of one hand is written. -/
theorem ledAt_storeLed (h k : Hand) (i j : BitVec 5) (c : Color) (s : State) :
    ledAt ((storeLed h i c s).fb.get k) j = if k = h ∧ j = i then quantise s.cfg c else ledAt (s.fb.get k) j := by
  rw [storeLed, State.withFb_fb]
  by_cases hk : k = h
  · subst hk
    simp only [Pair.get_set_same, ledAt_setLed, true_and]
  · simp only [Pair.get_set_other _ hk, hk, false_and, if_false]

/-- The entry holds the stored form, whether it is written or held it before. -/
theorem ledAt_setLedColor (h k : Hand) (i j : BitVec 5) (c : Color) (s : State) :
    ledAt ((setLedColor h i c s).fb.get k) j = if k = h ∧ j = i then quantise s.cfg c else ledAt (s.fb.get k) j := by
  unfold setLedColor
  split
  · rename_i hstored
    split
    · rename_i hentry
      obtain ⟨rfl, rfl⟩ := hentry
      exact hstored
    · rfl
  · exact ledAt_storeLed h k i j c s

/-- The bank of the entry is marked if the colour differs from what was stored. -/
theorem isDirty_setLedColor (h k : Hand) (i : BitVec 5) (c : Color) (s : State) (n : BitVec 2) :
    isDirty ((setLedColor h i c s).dirty.get k) n = (isDirty (s.dirty.get k) n ||
      decide (k = h ∧ n = ledBankOf i ∧ ledAt (s.fb.get h) i ≠ quantise s.cfg c)) := by
  unfold setLedColor
  split
  · rename_i hstored
    simp [hstored]
  · rename_i hdiffers
    rw [State.withDirty_dirty]
    by_cases hk : k = h
    · subst hk
      simp [isDirty_markDirty, hdiffers]
    · simp [Pair.get_set_other _ hk, hk]

/-- Setting a colour sends nothing. -/
theorem setLedColor_noBusTraffic (h : Hand) (i : BitVec 5) (c : Color) (s : State) :
    NoBusTraffic s (setLedColor h i c s) := by
  unfold setLedColor
  split <;> constructor <;> rfl

theorem setLedColor_block (h : Hand) (i : BitVec 5) (c : Color) (s : State) :
    SameBlock ((s.withFb (setLedColor h i c s).fb).withDirty (setLedColor h i c s).dirty) (setLedColor h i c s) := by
  unfold setLedColor
  split <;> constructor <;> rfl

theorem ledAt_fillLeds (h k : Hand) (j : BitVec 5) (c : Color) (s : State) :
    ledAt ((fillLeds h c s).fb.get k) j = if k = h then quantise s.cfg c else ledAt (s.fb.get k) j := by
  split
  · rename_i hk
    rw [hk, fillLeds_get_same]
  · rename_i hk
    rw [fillLeds_get_other hk]

/-- Cleaning a bank that is clean changes nothing. -/
theorem cleanBank_of_clean {h : Hand} {n : BitVec 2} {s : State} (hclean : isDirty (s.dirty.get h) n = false) :
    cleanBank h n s = s := by
  have hmask : markClean (s.dirty.get h) n = s.dirty.get h := mask_ext fun m => by
    by_cases hm : m = n
    · simp [isDirty_markClean, hm, hclean]
    · simp [isDirty_markClean, hm]
  rw [cleanBank, hmask, Pair.set_get, State.withDirty]

theorem isDirty_cleanBank (h k : Hand) (n m : BitVec 2) (s : State) :
    isDirty ((cleanBank h n s).dirty.get k) m = (isDirty (s.dirty.get k) m && !decide (k = h ∧ m = n)) := by
  rw [cleanBank, State.withDirty_dirty]
  by_cases hk : k = h
  · subst hk
    simp [isDirty_markClean]
  · simp [Pair.get_set_other _ hk, hk]

/-! ## The colours of keys (42_led_sync.md R165, R166) -/

section
variable {s : State}

theorem exec_setkc_of_ready (hr : s.Ready) (k : BitVec 6) (c : Color) :
    exec (.setkc (k.setWidth 8) c) s = .next ((setKeyColor k c s).withResult .none) := by
  change execSetkc (k.setWidth 8) c s = _
  rw [execSetkc, whenAdmitted_of_ready hr, keyOperand_setWidth]

theorem exec_getkc_of_ready (hr : s.Ready) (k : BitVec 6) :
    exec (.getkc (k.setWidth 8)) s = .next (s.withResult (.optColor (some (getKeyColor k s)))) := by
  change execGetkc (k.setWidth 8) s = _
  rw [execGetkc, whenAdmitted_of_ready hr, keyOperand_setWidth]
  rfl

/-! ## One frame to one hand -/

/-- A frame to a hand is answered, with the status the environment gives where it gives one, and a healthy reference
responder takes it (20_memory.md R51, R58, R61 to R65). -/
theorem busWrite_frame_returns {i : Instr} {h : Hand} {bytes : List Byte} (hc : configOk s.cfg = true)
    (ha : s.Answered 1) (hi : encode s.cfg i = .busWrite (devAddr s.cfg h) bytes) :
    ∃ st t, busWrite (devAddr s.cfg h) bytes s = .returned st t ∧
      AfterTransaction s t (.write (devAddr s.cfg h) bytes st) ∧ (∀ f, s.forcedStatus 0 = some f → st = f) ∧
      (s.Unscripted → (s.periph.get h).fail = false → t.periph.get h = receiveFrame (s.periph.get h) i) := by
  obtain ⟨st, t, hrun, ht, hforced⟩ := busWrite_returns_forced (devAddr s.cfg h) bytes ha
  refine ⟨st, t, hrun, ht, hforced, fun hu hf => ?_⟩
  cases hrun.symm.trans (busWrite_of_frame hc hu hf hi)
  simp

/-- A bank frame shows the frame buffer on the LEDs of its bank (20_memory.md R55, R63). -/
theorem ledAt_receiveFrame_ledBank (cfg : Config) (p : Periph) (dev : BitVec 7) (n : BitVec 2)
    (leds : Vector Color 32) (i : BitVec 5) :
    ledAt (receiveFrame p (.ledBank dev n (bankWire cfg leds n))).leds i =
      if ledBankOf i = n then wire cfg (ledAt leds i) else ledAt p.leds i := by
  change ledAt (writeBank p.leds n (bankWire cfg leds n)) i = _
  split
  · rename_i hbank
    subst hbank
    have hslot := ledAt_writeBank_slot p.leds (ledBankOf i) (bankWire cfg leds (ledBankOf i)) (ledSlotOf i)
    rwa [bankWire_getElem, slotWire, bankLed_ledBankOf] at hslot
  · exact ledAt_writeBank_other p.leds _ ‹_›

/-- S.UPDLED with a valid index is the LED's frame and then the frame buffer's entry (42_led_sync.md R163). -/
theorem exec_sUpdled_of_sent {h : Hand} {i : BitVec 5} {c : Color} {st : Byte} {t : State} (hr : s.Ready)
    (hsent : busWrite (devAddr s.cfg h) (ledSetOneFrame s.cfg (i.setWidth 8) (wire s.cfg (quantise s.cfg c))) s =
      .returned st t) :
    exec (.sUpdled h (i.setWidth 8) c) s = .next ((storeLed h i c t).withResult (.optByte (some st))) := by
  change execSUpdled h (i.setWidth 8) c s = _
  rw [execSUpdled, whenAdmitted_of_ready hr, indexOperand_setWidth]
  simp only [updateLed, hsent, BusRun.returned_andThen, finish_returned]

/-- S.UPDALL is the broadcast frame and then the hand's frame buffer and dirty bits (42_led_sync.md R164). -/
theorem exec_sUpdall_of_sent {h : Hand} {c : Color} {st : Byte} {t : State} (hr : s.Ready)
    (hsent : busWrite (devAddr s.cfg h) (ledSetAllFrame s.cfg (wire s.cfg (quantise s.cfg c))) s = .returned st t) :
    exec (.sUpdall h c) s = .next ((fillLeds h c t).withResult (.status st)) := by
  change execSUpdall h c s = _
  rw [execSUpdall, whenAdmitted_of_ready hr, updateAllLeds, hsent, BusRun.returned_andThen, BusRun.returned_andThen,
    finish_returned]

end

end Machine

end Sys2Proof
end

section
/-! # What a flush step does

S.UPDBANK by whether the bank that the advanced cursor selects is dirty (42_led_sync.md R162), everything it leaves, and
then any number of flush steps of one hand that select different banks (R172). -/

namespace Sys2Proof.Machine

/-! ## One flush step (42_led_sync.md R162) -/

/-- What a flush step that selects bank n of hand h has done: the cursor advanced and the bank clean, one frame of the bank
if it was dirty, and nothing sent if it was clean. -/
structure FlushStep (h : Hand) (n : BitVec 2) (s t : State) : Prop where
  result : t.result = .none
  block : SameBlock (cleanBank h n (advanceCursor h s)) t
  turns : t.turns = s.turns ∨ t.turns = s.turns.drop 1
  sent : isDirty (s.dirty.get h) n = true →
    ∃ st, t.busLog = s.busLog ++ [.write (devAddr s.cfg h) (bankFrameNow h n s) st]
  received : isDirty (s.dirty.get h) n = true → s.Unscripted → (s.periph.get h).fail = false →
    t.periph.get h = receiveFrame (s.periph.get h) (.ledBank (devAddr s.cfg h) n (bankWire s.cfg (s.fb.get h) n))
  quiet : isDirty (s.dirty.get h) n = false → NoBusTraffic s t

section
variable {s t : State} {h : Hand} {n : BitVec 2}

theorem updateNextLedBank_of_clean (hn : n = s.cursor.get h + 1) (hclean : isDirty (s.dirty.get h) n = false) :
    updateNextLedBank h s = .returned () (advanceCursor h s) := by
  have hcursor : (advanceCursor h s).cursor.get h = n := by simp [advanceCursor, hn]
  have hselected : isDirty ((advanceCursor h s).dirty.get h) n = false := hclean
  rw [updateNextLedBank, flushSelected, hcursor, hselected, if_neg Bool.false_ne_true]

theorem updateNextLedBank_of_dirty (hn : n = s.cursor.get h + 1) (hdirty : isDirty (s.dirty.get h) n = true) :
    updateNextLedBank h s = (busWrite (devAddr s.cfg h) (bankFrameNow h n s) (advanceCursor h s)).andThen
      fun _ t => .returned () (cleanBank h n t) := by
  have hcursor : (advanceCursor h s).cursor.get h = n := by simp [advanceCursor, hn]
  have hselected : isDirty ((advanceCursor h s).dirty.get h) n = true := hdirty
  rw [updateNextLedBank, flushSelected, hcursor, if_pos hselected]
  rfl

theorem exec_sUpdbank_of_run (hr : s.Ready) (hrun : updateNextLedBank h s = .returned () t) :
    exec (.sUpdbank h) s = .next (t.withResult .none) := by
  change execSUpdbank h s = _
  rw [execSUpdbank, whenAdmitted_of_ready hr, hrun, BusRun.returned_andThen, finish_returned]

/-- S.UPDBANK on a ready block, if it is answered, takes one flush step. -/
theorem exec_sUpdbank_flushes (hr : s.Ready) (ha : s.Answered 1) (hn : n = s.cursor.get h + 1) :
    ∃ t, exec (.sUpdbank h) s = .next t ∧ FlushStep h n s t := by
  cases hselected : isDirty (s.dirty.get h) n with
  | false =>
    refine ⟨_, exec_sUpdbank_of_run hr (updateNextLedBank_of_clean hn hselected), ?_⟩
    have hclean (hdirty : isDirty (s.dirty.get h) n = true) : False := nomatch hselected.symm.trans hdirty
    refine ⟨rfl, ?_, .inl rfl, fun hdirty => (hclean hdirty).elim, fun hdirty => (hclean hdirty).elim,
      fun _ => by constructor <;> rfl⟩
    rw [cleanBank_of_clean (s := advanceCursor h s) hselected]
    exact (SameBlock.refl _).withResult _
  | true =>
    obtain ⟨st, u, hsent, hu, -, hreceived⟩ := busWrite_frame_returns (s := advanceCursor h s)
      (i := .ledBank (devAddr s.cfg h) n (bankWire s.cfg (s.fb.get h) n)) (h := h) hr.1.1 ha rfl
    have hrun : updateNextLedBank h s = .returned () (cleanBank h n u) :=
      (updateNextLedBank_of_dirty hn hselected).trans
        (congrArg (fun m : BusRun Byte => m.andThen fun _ t => .returned () (cleanBank h n t)) hsent)
    refine ⟨_, exec_sUpdbank_of_run hr hrun, rfl, ?_, .inr hu.turns, fun _ => ⟨st, hu.busLog⟩, fun _ => hreceived,
      fun hclean => nomatch hselected.symm.trans hclean⟩
    have hdirty : u.dirty = s.dirty := hu.block.dirty
    rw [cleanBank, cleanBank, hdirty]
    exact (hu.block.withDirty _).withResult _

end

namespace FlushStep

section
variable {s t : State} {h : Hand} {n : BitVec 2}

theorem answered (hs : FlushStep h n s t) {k : Nat} (ha : s.Answered (k + 1)) : t.Answered k := by
  obtain hsame | hnext := hs.turns
  · intro x hx
    rw [hsame] at hx
    exact ha.mono (Nat.le_succ k) x hx
  · exact ha.drop_one hnext

theorem unscripted (hs : FlushStep h n s t) (hu : s.Unscripted) : t.Unscripted := by
  have hturns : s.turns = [] := hu
  obtain hsame | hnext := hs.turns
  · exact hsame.trans hturns
  · rw [State.Unscripted, hnext, hturns, List.drop_nil]

theorem ready (hs : FlushStep h n s t) (hr : s.Ready) : t.Ready := hs.block.ready hr

theorem isDirty_eq (hs : FlushStep h n s t) (k : Hand) (m : BitVec 2) :
    isDirty (t.dirty.get k) m = (isDirty (s.dirty.get k) m && !decide (k = h ∧ m = n)) := by
  rw [hs.block.dirty]
  exact isDirty_cleanBank h k n m (advanceCursor h s)

theorem cursor_eq (hs : FlushStep h n s t) : t.cursor = s.cursor.set h (s.cursor.get h + 1) := hs.block.cursor

/-- Nothing of the block but the cursors and the dirty bits has changed. -/
theorem otherRegisters (hs : FlushStep h n s t) : SameBlock ((s.withCursor t.cursor).withDirty t.dirty) t := by
  refine .trans ?_ hs.block
  rw [hs.block.cursor, hs.block.dirty]
  constructor <;> rfl

theorem periph_healthy (hs : FlushStep h n s t) (hu : s.Unscripted) (hf : (s.periph.get h).fail = false) :
    (t.periph.get h).fail = false := by
  cases hselected : isDirty (s.dirty.get h) n with
  | false => rw [(hs.quiet hselected).periph, hf]
  | true => rw [hs.received hselected hu hf, receiveFrame_fail, hf]

/-- A healthy reference responder shows the frame buffer on the LEDs of the bank if it was sent. -/
theorem shown (hs : FlushStep h n s t) (hu : s.Unscripted) (hf : (s.periph.get h).fail = false) (i : BitVec 5) :
    ledAt (t.periph.get h).leds i =
      if ledBankOf i = n ∧ isDirty (s.dirty.get h) n = true then wire s.cfg (ledAt (s.fb.get h) i)
      else ledAt (s.periph.get h).leds i := by
  cases hselected : isDirty (s.dirty.get h) n with
  | false => simp [(hs.quiet hselected).periph]
  | true => simp [hs.received hselected hu hf, ledAt_receiveFrame_ledBank]

end

end FlushStep

/-! ## Flush steps that select different banks (42_led_sync.md R172) -/

/-- The banks that the next k flush steps of a hand select, from this cursor on. -/
def banksFrom (cursor : BitVec 2) : Nat → List (BitVec 2)
  | 0 => []
  | k + 1 => (cursor + 1) :: banksFrom (cursor + 1) k

/-- What flush steps that selected these different banks of hand h have done: the cursor advanced by their number, the banks
clean, and one frame for each bank that was dirty. -/
structure FlushRun (h : Hand) (banks : List (BitVec 2)) (s t : State) : Prop where
  block : SameBlock ((s.withCursor t.cursor).withDirty t.dirty) t
  cursor : t.cursor = s.cursor.set h (s.cursor.get h + BitVec.ofNat 2 banks.length)
  dirty : ∀ k m, isDirty (t.dirty.get k) m = (isDirty (s.dirty.get k) m && !decide (k = h ∧ m ∈ banks))
  sent : ∃ l, t.busLog = s.busLog ++ l ∧ l.length = banks.countP (isDirty (s.dirty.get h)) ∧
    ∀ n ∈ banks, isDirty (s.dirty.get h) n = true →
      ∃ st, Transaction.write (devAddr s.cfg h) (bankFrameNow h n s) st ∈ l
  shown : s.Unscripted → (s.periph.get h).fail = false → ∀ i, ledAt (t.periph.get h).leds i =
    if ledBankOf i ∈ banks ∧ isDirty (s.dirty.get h) (ledBankOf i) = true then wire s.cfg (ledAt (s.fb.get h) i)
    else ledAt (s.periph.get h).leds i

section
variable {s t u : State} {h : Hand} {n : BitVec 2} {banks : List (BitVec 2)}

theorem FlushRun.refl (h : Hand) (s : State) : FlushRun h [] s s where
  block := by constructor <;> rfl
  cursor := by simp
  dirty := by simp
  sent := ⟨[], by simp⟩
  shown := by simp

/-- The history of a flush step has a frame exactly if the bank was dirty. -/
theorem FlushStep.log (hs : FlushStep h n s t) : ∃ l, t.busLog = s.busLog ++ l ∧
    l.length = [n].countP (isDirty (s.dirty.get h)) ∧ (isDirty (s.dirty.get h) n = true →
      ∃ st, Transaction.write (devAddr s.cfg h) (bankFrameNow h n s) st ∈ l) := by
  cases hselected : isDirty (s.dirty.get h) n with
  | false => exact ⟨[], by simp [(hs.quiet hselected).busLog], by simp [hselected], by simp⟩
  | true =>
    obtain ⟨st, hlog⟩ := hs.sent hselected
    exact ⟨_, hlog, by simp [hselected], fun _ => ⟨st, List.mem_singleton_self _⟩⟩

/-- A flush step leaves every other bank of the hand as dirty as it was. -/
theorem FlushStep.isDirty_of_ne (hs : FlushStep h n s t) {m : BitVec 2} (hm : m ≠ n) :
    isDirty (t.dirty.get h) m = isDirty (s.dirty.get h) m := by
  simp [hs.isDirty_eq, hm]

/-- A flush step leaves the frames of the hand's banks as they were. -/
theorem FlushStep.bankFrameNow_eq (hs : FlushStep h n s t) (m : BitVec 2) : bankFrameNow h m t = bankFrameNow h m s := by
  have hcfg : t.cfg = s.cfg := hs.block.cfg
  have hfb : t.fb = s.fb := hs.block.fb
  rw [bankFrameNow, bankFrameNow, hcfg, hfb]

/-- One more flush step in front, of a bank that the later ones do not select. -/
theorem FlushRun.cons (hs : FlushStep h n s t) (hrun : FlushRun h banks t u) (hnew : n ∉ banks) :
    FlushRun h (n :: banks) s u := by
  have hcfg : t.cfg = s.cfg := hs.block.cfg
  have hfb : t.fb = s.fb := hs.block.fb
  have hothers : ∀ m ∈ banks, isDirty (t.dirty.get h) m = isDirty (s.dirty.get h) m := fun m hm =>
    hs.isDirty_of_ne (ne_of_mem_of_not_mem hm hnew)
  refine ⟨((hs.otherRegisters.withCursor u.cursor).withDirty u.dirty).trans hrun.block, ?cursor, fun k m => ?dirty,
    ?sent, fun hu hf i => ?shown⟩
  case cursor =>
    rw [hrun.cursor, hs.cursor_eq, Pair.get_set_same, Pair.set_set, List.length_cons, BitVec.ofNat_add,
      BitVec.add_assoc, BitVec.add_comm 1]
    rfl
  case dirty =>
    simp only [hrun.dirty, hs.isDirty_eq, List.mem_cons, and_or_left, Bool.decide_or, Bool.not_or, Bool.and_assoc]
  case sent =>
    obtain ⟨l, hlog, hlength, hframe⟩ := hs.log
    obtain ⟨l', hlog', hlength', hframes⟩ := hrun.sent
    refine ⟨l ++ l', by rw [hlog', hlog, List.append_assoc], ?_, fun m hm hdirty => ?_⟩
    · have hcount : banks.countP (isDirty (t.dirty.get h)) = banks.countP (isDirty (s.dirty.get h)) :=
        List.countP_congr fun m hm => by rw [hothers m hm]
      rw [List.length_append, hlength, hlength', hcount, ← List.countP_append, List.singleton_append]
    · obtain rfl | hlater := List.mem_cons.mp hm
      · obtain ⟨st, hst⟩ := hframe hdirty
        exact ⟨st, List.mem_append_left l' hst⟩
      · obtain ⟨st, hst⟩ := hframes m hlater ((hothers m hlater).trans hdirty)
        rw [hcfg, hs.bankFrameNow_eq] at hst
        exact ⟨st, List.mem_append_right l hst⟩
  case shown =>
    rw [hrun.shown (hs.unscripted hu) (hs.periph_healthy hu hf) i, hs.shown hu hf i, hcfg, hfb]
    by_cases hbank : ledBankOf i = n
    · simp [hbank, hnew]
    · simp [hbank, hs.isDirty_of_ne hbank]

/-- As many flush steps as select different banks, each answered. -/
theorem execAll_sUpdbank (k : Nat) (hr : s.Ready) (ha : s.Answered k) (hnew : (banksFrom (s.cursor.get h) k).Nodup) :
    ∃ t, execAll (List.replicate k (.sUpdbank h)) s = .next t ∧ FlushRun h (banksFrom (s.cursor.get h) k) s t := by
  induction k generalizing s with
  | zero => exact ⟨s, rfl, .refl h s⟩
  | succ k ih =>
    obtain ⟨hfirst, hrest⟩ := List.nodup_cons.mp hnew
    obtain ⟨t, hexec, ht⟩ := exec_sUpdbank_flushes (h := h) hr (State.Answered.mono ha (by omega)) rfl
    have hcursor : t.cursor.get h = s.cursor.get h + 1 := by rw [ht.cursor_eq, Pair.get_set_same]
    obtain ⟨u, hrun, hu⟩ := ih (ht.ready hr) (ht.answered ha) (hcursor ▸ hrest)
    rw [hcursor] at hu
    exact ⟨u, (execAll_cons hexec _).trans hrun, .cons ht hu hfirst⟩

end

/-- Four flush steps select each bank once. -/
theorem banksFrom_four_perm (cursor : BitVec 2) : (banksFrom cursor 4).Perm [0, 1, 2, 3] := by
  decide +revert

theorem mem_banksFrom_four (cursor n : BitVec 2) : n ∈ banksFrom cursor 4 := by
  rw [(banksFrom_four_perm cursor).mem_iff]
  decide +revert

end Sys2Proof.Machine
end

section
/-! # UPDLEDS

The gated call and the fired one (42_led_sync.md R167). A fired one is a flush step of each hand; between the two flush
steps as instructions a result is shown, which no flush step reads. -/

namespace Sys2Proof.Machine

/-! ## No flush step reads the result -/

/-- The run with the result replaced in the state it ends in. -/
def BusRun.withResult {α : Type} (r : Result) : BusRun α → BusRun α
  | .returned a s => .returned a (s.withResult r)
  | .hung s => .hung (s.withResult r)

theorem busWrite_withResult (dev : BitVec 7) (bytes : List Byte) (r : Result) (s : State) :
    busWrite dev bytes (s.withResult r) = (busWrite dev bytes s).withResult r := by
  have hturn : takeTurn (s.withResult r) = ((takeTurn s).1, (takeTurn s).2.withResult r) := by
    unfold takeTurn
    rw [State.withResult_turns]
    cases s.turns <;> rfl
  have hrespond (t : State) : respondWrite dev bytes (t.withResult r) =
      ((respondWrite dev bytes t).1, (respondWrite dev bytes t).2.withResult r) := by
    unfold respondWrite
    rw [State.withResult_cfg]
    cases handOfDev t.cfg dev <;> rfl
  unfold busWrite
  rw [hturn]
  cases (takeTurn s).1 with
  | responder =>
    simp only [hrespond]
    rfl
  | _ => rfl

theorem updateNextLedBank_withResult (h : Hand) (r : Result) (s : State) :
    updateNextLedBank h (s.withResult r) = (updateNextLedBank h s).withResult r := by
  change flushSelected h ((advanceCursor h s).withResult r) = (flushSelected h (advanceCursor h s)).withResult r
  generalize advanceCursor h s = s
  unfold flushSelected
  simp only [State.withResult_dirty, State.withResult_cursor, State.withResult_cfg]
  split
  · change (busWrite _ (bankFrameNow h (s.cursor.get h) s) (s.withResult r)).andThen _ = _
    rw [busWrite_withResult]
    cases busWrite (devAddr s.cfg h) (bankFrameNow h (s.cursor.get h) s) s <;> rfl
  · rfl

/-! ## UPDLEDS gated and fired (42_led_sync.md R167) -/

section
variable {s t : State}

theorem exec_updleds_of_gated (hr : s.Ready) (hgated : flushDue s.cfg (timeSample s.cfg s.msNow) s.lastFlush = false) :
    exec .updleds s = .next (s.withResult .none) := by
  change execUpdleds s = _
  rw [execUpdleds, whenAdmitted_of_ready hr, updateLeds, hgated, if_neg Bool.false_ne_true, BusRun.returned_andThen,
    finish_returned]

/-- An S.UPDBANK that has not hung is a flush step that returned. -/
theorem run_of_exec_sUpdbank {h : Hand} (hexec : exec (.sUpdbank h) s = .next t) (hhung : t.hung = false) :
    ∃ u, updateNextLedBank h s = .returned () u ∧ t = u.withResult .none := by
  obtain ⟨r, u, hrun, rfl⟩ | ⟨u, -, rfl⟩ := finish_cases (whenAdmitted_next hexec).2
  · obtain ⟨_, u, hflush, hshown⟩ := BusRun.andThen_returned hrun
    cases hshown
    exact ⟨u, hflush, rfl⟩
  · cases hhung

/-- A fired UPDLEDS stamps the time and does what one S.UPDBANK of the left hand and then one of the right do, if neither
hangs. -/
theorem exec_updleds_of_due {u : State} (hr : s.Ready)
    (hdue : flushDue s.cfg (timeSample s.cfg s.msNow) s.lastFlush = true)
    (hleft : exec (.sUpdbank .left) (s.withLastFlush (timeSample s.cfg s.msNow)) = .next t) (ht : t.hung = false)
    (hright : exec (.sUpdbank .right) t = .next u) (hu : u.hung = false) : exec .updleds s = .next u := by
  obtain ⟨t', hrunLeft, rfl⟩ := run_of_exec_sUpdbank hleft ht
  obtain ⟨u', hrunRight, rfl⟩ := run_of_exec_sUpdbank hright hu
  rw [updateNextLedBank_withResult] at hrunRight
  change execUpdleds s = _
  rw [execUpdleds, whenAdmitted_of_ready hr, updateLeds, if_pos hdue, hrunLeft, BusRun.returned_andThen]
  cases hflush : updateNextLedBank .right t' with
  | returned a v =>
    rw [hflush] at hrunRight
    cases hrunRight
    rfl
  | hung v =>
    rw [hflush] at hrunRight
    cases hrunRight

/-- An instruction that neither initialises nor halts the block, and has not hung, leaves it ready. -/
theorem exec_keeps_ready {i : Instr} (hsetup : i ≠ .setup) (hreboot : i ≠ .reboot) (hexec : exec i s = .next t)
    (hhung : t.hung = false) : t.Ready := by
  obtain ⟨⟨hok, -, hhalted⟩, hinit⟩ := ready_of_exec_next hsetup hexec
  have hcfg : t.cfg = s.cfg := exec_keeps_cfg i s t hexec
  have hkeptHalted : t.halted = s.halted := exec_writes_only_its_registers (r := .halted) hexec hreboot
  have hkeptInit : t.initialized = s.initialized := exec_writes_only_its_registers (r := .initialized) hexec hsetup
  exact ⟨⟨hcfg ▸ hok, hhung, hkeptHalted.trans hhalted⟩, hkeptInit.trans hinit⟩

end

end Sys2Proof.Machine
end

section
/-! # The statements of 42_led_sync.md -/

namespace Sys2Proof.Machine

/-- Settles O7: the identity table, and the gamma formula, whose values are bytes. -/
theorem defaultConfigurationIsWellFormed : Obligations.DefaultConfigurationIsWellFormed := by
  refine ⟨configOk_default, ledOfKey_default, fun c => ?_⟩
  rw [gammaOf_default, BitVec.toNat_ofNat, Nat.mod_eq_of_lt (gammaDefault_lt c)]

/-- Settles O9: the table is a bijection (00_scope.md R4 c), and hand and index name the LED address. -/
theorem everyLedSlotBelongsToOneKey : Obligations.EveryLedSlotBelongsToOneKey := fun cfg hc h i => by
  obtain ⟨-, -, hmap, -, -⟩ := (configOk_iff cfg).mp hc
  obtain ⟨hinj, hsurj⟩ := (mapOk_iff cfg).mp hmap
  obtain ⟨k, hk⟩ := hsurj (assembleLed h i)
  refine ⟨k, ?_, fun k' hhand hindex => hinj ?_⟩
  · rw [hk]
    exact ⟨ledHand_assembleLed h i, ledIndex_assembleLed h i⟩
  · rw [hk, ← assembleLed_parts (ledOfKey cfg k'), hhand, hindex]

/-- Settles O44: what setting a colour leaves in the frame buffer, in the dirty bits and of the rest. -/
theorem setLedColorStoresAndMarks : Obligations.SetLedColorStoresAndMarks := fun s h i c hr => by
  have htraffic := setLedColor_noBusTraffic h i c s
  refine ⟨_, exec_sSetlc_of_ready hr h i c, rfl, ⟨htraffic.busLog, htraffic.turns, htraffic.periph, htraffic.freeCtr⟩,
    fun k j => ledAt_setLedColor h k i j c s, fun k n => isDirty_setLedColor h k i c s n, ?_⟩
  exact (setLedColor_block h i c s).withResult .none

/-- Settles O45: a valid index is read back from its operand byte. -/
theorem getLedColorReturnsTheEntry : Obligations.GetLedColorReturnsTheEntry := fun _ h i hr =>
  exec_sGetlc_of_ready hr h i

/-- Settles O46: the key's LED comes from the table, and the rest is the operation on that LED. -/
theorem keyColoursDelegateToTheLed : Obligations.KeyColoursDelegateToTheLed := by
  rintro s k _ c hr rfl
  exact ⟨⟨_, exec_setkc_of_ready hr k c, exec_sSetlc_of_ready hr _ _ c⟩, exec_getkc_of_ready hr k⟩

/-- Settles O49, by the facts about one flush step. -/
theorem updateNextBankSendsTheSelectedDirtyBank : Obligations.UpdateNextBankSendsTheSelectedDirtyBank :=
  fun s h n hr ha hn => by
    obtain ⟨t, hexec, ht⟩ := exec_sUpdbank_flushes hr ha hn
    refine ⟨t, hexec, ht.result, hn ▸ ht.cursor_eq, ht.sent, ht.quiet, ht.isDirty_eq, fun hu hf hdirty i => ?_,
      ht.otherRegisters⟩
    rw [ht.shown hu hf i, hdirty]
    simp only [and_true]

/-- Settles O50: four flush steps select each of the four banks once. -/
theorem fourFlushStepsFlushTheHand : Obligations.FourFlushStepsFlushTheHand := fun s h hr ha => by
  have hperm := banksFrom_four_perm (s.cursor.get h)
  obtain ⟨t, hexec, ht⟩ := execAll_sUpdbank (h := h) 4 hr ha (hperm.nodup_iff.mpr (by decide))
  obtain ⟨l, hlog, hlength, hframes⟩ := ht.sent
  have hcursor : t.cursor = s.cursor := by
    rw [ht.cursor, hperm.length_eq]
    simp
  have hdirty : t.dirty = s.dirty.set h 0 := by
    have hmasks (k : Hand) : t.dirty.get k = (s.dirty.set h 0).get k := mask_ext fun m => by
      by_cases hk : k = h
      · rw [hk, Pair.get_set_same, isDirty_zero, ht.dirty]
        simp [mem_banksFrom_four]
      · simp [ht.dirty, Pair.get_set_other _ hk, hk]
    exact Pair.ext_get (hmasks .left) (hmasks .right)
  refine ⟨t, l, hexec, hlog, ?_, fun n => hframes n (mem_banksFrom_four _ n), hdirty, ?_, fun hu hf i => ?_⟩
  · rw [hlength, hperm.countP_eq]
    rfl
  · have hblock := ht.block
    rwa [hcursor] at hblock
  · rw [ht.shown hu hf i]
    simp only [mem_banksFrom_four, true_and]

/-- Settles O51: the difference that the gate compares is the one of R167. -/
theorem updateLedsIsGatedBeforeTheInterval : Obligations.UpdateLedsIsGatedBeforeTheInterval :=
  fun s hr helapsed hlast => exec_updleds_of_gated hr (flushDue_eq_false.mpr (by rwa [elapsedMs_of_lt hlast]))

/-- Settles O52: the two flush steps that a fired UPDLEDS takes, each answered. -/
theorem updateLedsFiresAfterTheInterval : Obligations.UpdateLedsFiresAfterTheInterval := fun s hr ha hlast helapsed => by
  have hdue : flushDue s.cfg (timeSample s.cfg s.msNow) s.lastFlush = true :=
    flushDue_eq_true.mpr (by rwa [elapsedMs_of_lt hlast])
  obtain ⟨t, hleft, ht⟩ := exec_sUpdbank_flushes (s := s.withLastFlush (timeSample s.cfg s.msNow)) (h := .left) hr
    (State.Answered.mono ha (by decide)) rfl
  have hrt : t.Ready := ht.ready hr
  obtain ⟨u, hright, hu⟩ := exec_sUpdbank_flushes (h := .right) hrt (ht.answered ha) rfl
  have hru : u.Ready := hu.ready hrt
  refine ⟨u, exec_updleds_of_due hr hdue hleft hrt.1.2.1 hright hru.1.2.1, ?_, hu.result, ?_, ?_⟩
  · exact hu.block.lastFlush.trans ht.block.lastFlush
  · rw [hu.cursor_eq, ht.cursor_eq]
    rfl
  · exact (execAll_cons hleft _).trans (execAll_cons hright [])

/-- Settles O53: since the stamp less than the interval has passed, and so less than the counter's modulus
(00_scope.md R4 e). -/
theorem flushRateIsBounded : Obligations.FlushRateIsBounded := fun s t d hr hexec hhung hstamp hd => by
  have hcfg : t.cfg = s.cfg := exec_keeps_cfg .updleds s t hexec
  have hready : t.Ready := exec_keeps_ready (i := .updleds) nofun nofun hexec hhung
  obtain ⟨-, -, -, -, hinterval⟩ := (configOk_iff s.cfg).mp hr.1.1
  have hrange : d < 2 ^ s.cfg.timerBits := hd.trans ((intervalOk_iff s.cfg).mp hinterval)
  refine exec_updleds_of_gated (s := t.withMsNow (s.msNow + d)) hready (flushDue_eq_false.mpr ?_)
  have helapsed : elapsedMs s.cfg (timeSample s.cfg (s.msNow + d)) (s.msNow % 2 ^ s.cfg.timerBits) = d :=
    (elapsedMs_timeSample s.cfg s.msNow d).trans (Nat.mod_eq_of_lt hrange)
  change elapsedMs t.cfg (timeSample t.cfg (s.msNow + d)) t.lastFlush < t.cfg.ledFlushIntervalMs
  rw [hcfg, hstamp, helapsed]
  exact hd

/-- Settles O54: the answered frame, then the entry. -/
theorem updateLedSendsAndStores : Obligations.UpdateLedSendsAndStores := by
  rintro s h i c _ hr ha rfl
  obtain ⟨st, u, hsent, hu, hforced, hreceived⟩ := busWrite_frame_returns (h := h) hr.1.1 ha
    (i := .ledSetOne (devAddr s.cfg h) (i.setWidth 8) (wire s.cfg (quantise s.cfg c))) rfl
  have hcfg : u.cfg = s.cfg := hu.block.cfg
  have hfb : u.fb = s.fb := hu.block.fb
  refine ⟨_, st, exec_sUpdled_of_sent hr hsent, rfl, hforced, hu.busLog, fun k j => ?_, fun hun hf j => ?_, ?_⟩
  · rw [State.withResult_fb, ledAt_storeLed, hcfg, hfb]
  · change ledAt (u.periph.get h).leds j = _
    rw [hreceived hun hf, receiveFrame_ledSetOne, ledAt_setLed]
  · exact (hu.block.withFb _).withResult _

/-- Settles O55: the answered broadcast, then the hand's frame buffer and dirty bits. -/
theorem updateAllSendsAndResetsTheHand : Obligations.UpdateAllSendsAndResetsTheHand := by
  rintro s h c _ hr ha rfl
  obtain ⟨st, u, hsent, hu, hforced, hreceived⟩ := busWrite_frame_returns (h := h) hr.1.1 ha
    (i := .ledSetAll (devAddr s.cfg h) (wire s.cfg (quantise s.cfg c))) rfl
  have hcfg : u.cfg = s.cfg := hu.block.cfg
  have hfb : u.fb = s.fb := hu.block.fb
  have hdirty : u.dirty = s.dirty := hu.block.dirty
  refine ⟨_, st, exec_sUpdall_of_sent hr hsent, rfl, hforced, hu.busLog, fun k j => ?_, fun hun hf j => ?_,
    congrArg (·.set h 0) hdirty, ?_⟩
  · rw [State.withResult_fb, ledAt_fillLeds, hcfg, hfb]
  · change ledAt (u.periph.get h).leds j = _
    rw [hreceived hun hf]
    exact ledAt_replicate _ j
  · exact ((hu.block.withFb _).withDirty _).withResult _

end Sys2Proof.Machine
end

section
/-! # What admits an instruction

What a halted block and an uninitialised one refuse (43_system_ops.md R194), and that an admitted operation always answers a
next state. -/

namespace Sys2Proof.Machine

section
variable {s : State}

/-! ## Not admitted (43_system_ops.md R194, R199) -/

theorem whenLive_of_halted (hc : configOk s.cfg = true) (hhung : s.hung = false) (hhalted : s.halted = true)
    (run : Host.Outcome State Fault Refusal) : whenLive s run = .refused .blockHalted := by
  rw [whenLive, whenConfigured_of_ok hc, hhung, hhalted, if_neg Bool.false_ne_true, if_pos rfl]

theorem whenAdmitted_of_uninitialised (hl : s.Live) (hinit : s.initialized = false)
    (run : Host.Outcome State Fault Refusal) : whenAdmitted s run = .refused .beforeSetup := by
  rw [whenAdmitted, whenLive_of_live hl, hinit, if_neg Bool.false_ne_true]

/-- Each instruction's meaning begins with the admission of SETUP, which every other admission contains. -/
theorem exec_eq_whenLive (i : Instr) (s : State) : ∃ run, exec i s = whenLive s run := by
  cases i <;> exact ⟨_, rfl⟩

/-- A halted block refuses every instruction, the bare frames and replies too (assumption log 9). -/
theorem exec_of_halted (i : Instr) (hc : configOk s.cfg = true) (hhung : s.hung = false) (hhalted : s.halted = true) :
    exec i s = .refused .blockHalted := by
  obtain ⟨run, hrun⟩ := exec_eq_whenLive i s
  rw [hrun, whenLive_of_halted hc hhung hhalted]

/-- Before SETUP a live block refuses every other instruction. -/
theorem exec_of_uninitialised {i : Instr} (hi : i ≠ .setup) (hl : s.Live) (hinit : s.initialized = false) :
    exec i s = .refused .beforeSetup := by
  obtain ⟨run, hrun⟩ := exec_eq_whenAdmitted hi s
  rw [hrun, whenAdmitted_of_uninitialised hl hinit]

/-! ## Admitted -/

/-- The end of an operation is a next state, whether its run returned or hung. -/
theorem finish_answers (m : BusRun Result) : ∃ t, finish m = .next t := by
  cases m with
  | returned r t => exact ⟨_, finish_returned r t⟩
  | hung t => exact ⟨_, finish_hung t⟩

theorem whenAdmitted_finish (s : State) (m : BusRun Result) :
    ∃ t, whenAdmitted s (finish m) = whenAdmitted s (.next t) := by
  obtain ⟨t, ht⟩ := finish_answers m
  exact ⟨t, congrArg (whenAdmitted s) ht⟩

/-- Nothing but admission refuses an operation: an invalid address is a result (60_exceptions.md R213), and so is a
failed transaction (R210). -/
theorem exec_operation_eq {i : Instr} (hop : isOperation i) (hi : i ≠ .setup) (s : State) :
    ∃ t, exec i s = whenAdmitted s (.next t) := by
  cases i with
  | setup => exact absurd rfl hi
  | nextev | getkc | ledpf | reboot | sGetlc => exact ⟨_, rfl⟩
  | scanm | updleds | setksi | sRdkeys | sUpdbank | sUpdall | sSetksi | sSetspi | sRdver | sRdksi | sRdspi =>
    exact whenAdmitted_finish s _
  | setkc k c =>
    change ∃ t, execSetkc k c s = _
    unfold execSetkc
    split <;> exact ⟨_, rfl⟩
  | sSetlc h j c =>
    change ∃ t, execSSetlc h j c s = _
    unfold execSSetlc
    split <;> exact ⟨_, rfl⟩
  | sUpdled h j c =>
    change ∃ t, execSUpdled h j c s = _
    unfold execSUpdled
    split
    · exact whenAdmitted_finish s _
    · exact ⟨_, rfl⟩
  | ledSetOne | ledSetAll | ledBank | keyscanInterval | ledSpiFrequency | regselVersion | regselKsi | regselSpi
  | keydata | reg =>
    obtain ⟨bytes, hbytes⟩ := hop
    cases hbytes

/-- An operation that is admitted answers a next state. -/
theorem exec_of_admitted {i : Instr} (hop : isOperation i) (hl : s.Live) (hadmit : i = .setup ∨ s.initialized = true) :
    ∃ t, exec i s = .next t := by
  by_cases hi : i = .setup
  · subst hi
    obtain ⟨t, ht⟩ := finish_answers ((setupBlock s).andThen fun _ s1 => .returned .none s1)
    exact ⟨t, (whenLive_of_live hl _).trans ht⟩
  · obtain ⟨t, ht⟩ := exec_operation_eq hop hi s
    exact ⟨t, ht.trans (whenAdmitted_of_ready ⟨hl, hadmit.resolve_left hi⟩ _)⟩

end

end Sys2Proof.Machine
end

section
/-! # SETUP and SETKSI

The two system operations with bus traffic, from their two answered writes (43_system_ops.md R190, R191). -/

namespace Sys2Proof.Machine

section
variable {s t : State}

/-! ## One broadcast to one hand (42_led_sync.md R164) -/

theorem quantise_black (cfg : Config) : quantise cfg Color.black = Color.black := by
  unfold quantise
  cases cfg.colorMode <;> rfl

/-- The bytes of the frame that broadcasts a colour as it is stored (30_encoding.md R82). -/
def broadcastBytes (cfg : Config) (c : Color) : List Byte := ledSetAllFrame cfg (wire cfg (quantise cfg c))

theorem broadcastBytes_black (cfg : Config) :
    broadcastBytes cfg Color.black = [cfg.cmdLedSetAll, gammaOf cfg 0, gammaOf cfg 0, gammaOf cfg 0] := by
  rw [broadcastBytes, quantise_black]
  rfl

/-- What a broadcast of colour c to hand h that was answered with this status has done. -/
structure Broadcast (h : Hand) (c : Color) (st : Byte) (s t : State) : Prop where
  block : SameBlock (fillLeds h c s) t
  busLog : t.busLog = s.busLog ++ [.write (devAddr s.cfg h) (broadcastBytes s.cfg c) st]
  turns : t.turns = s.turns.drop 1
  forced : ∀ f, s.forcedStatus 0 = some f → st = f
  periph : s.Unscripted → t.periph =
    s.periph.set h ((s.periph.get h).takeWrite s.cfg (devAddr s.cfg h) (broadcastBytes s.cfg c)).2

theorem SameBlock.fillLeds (hb : SameBlock s t) (h : Hand) (c : Color) :
    SameBlock (fillLeds h c s) (fillLeds h c t) := by
  have hcfg : t.cfg = s.cfg := hb.cfg
  have hfb : t.fb = s.fb := hb.fb
  have hdirty : t.dirty = s.dirty := hb.dirty
  rw [Machine.fillLeds, Machine.fillLeds, hcfg, hfb, hdirty]
  exact (hb.withFb _).withDirty _

/-- A broadcast that is answered returns. -/
theorem updateAllLeds_returns (hc : configOk s.cfg = true) (ha : s.Answered 1) (h : Hand) (c : Color) :
    ∃ st t, updateAllLeds h c s = .returned st t ∧ Broadcast h c st s t := by
  obtain ⟨st, u, hrun, hu, hforced⟩ := busWrite_returns_forced (devAddr s.cfg h) (broadcastBytes s.cfg c) ha
  refine ⟨st, fillLeds h c u, ?_, hu.block.fillLeds h c, hu.busLog, hu.turns, hforced, fun hun => ?_⟩
  · exact congrArg (fun m : BusRun Byte => m.andThen fun st s1 => .returned st (fillLeds h c s1)) hrun
  · rw [busWrite_unscripted hun, respondWrite_devAddr hc] at hrun
    cases hrun
    rfl

/-- A failing peripheral is as before the broadcast, and a healthy one shows the colour on every LED (20_memory.md R62,
R67). -/
theorem takeWrite_broadcast {cfg : Config} (hc : configOk cfg = true) (h : Hand) (c : Color) (p : Periph) :
    (p.fail = true → (p.takeWrite cfg (devAddr cfg h) (broadcastBytes cfg c)).2 = p) ∧
      (p.fail = false → ∀ i, ledAt (p.takeWrite cfg (devAddr cfg h) (broadcastBytes cfg c)).2.leds i =
        wire cfg (quantise cfg c)) := by
  refine ⟨fun hf => by rw [takeWrite_fail _ _ _ hf], fun hf i => ?_⟩
  have hdecode : decodeFrame cfg (devAddr cfg h) (broadcastBytes cfg c) =
      .ok (.ledSetAll (devAddr cfg h) (wire cfg (quantise cfg c))) := decodeFrame_of_frame hc rfl
  rw [takeWrite_frame hf hdecode]
  exact ledAt_replicate _ i

/-! ## SETUP (43_system_ops.md R190) -/

/-- The block after SETUP, by the operation's own writes and without what its transactions do to the environment. -/
def State.setUp (s : State) : State :=
  setupTimers (fillLeds .right Color.black (fillLeds .left Color.black (setupRegisters s)))

/-- SETUP blanks the frame buffer whatever it held (10_state.md R32). -/
theorem setUp_fb (s : State) (h : Hand) (i : BitVec 5) : ledAt (s.setUp.fb.get h) i = Color.black := by
  change ledAt ((fillLeds .right Color.black (fillLeds .left Color.black (setupRegisters s))).fb.get h) i = _
  rw [ledAt_fillLeds, ledAt_fillLeds, quantise_black, quantise_black]
  cases h <;> rfl

theorem SameBlock.setupTimers (hb : SameBlock s t) : SameBlock (setupTimers s) (setupTimers t) := by
  have hcfg : t.cfg = s.cfg := hb.cfg
  have hms : t.msNow = s.msNow := hb.msNow
  rw [Machine.setupTimers, Machine.setupTimers, hcfg, hms]
  exact { hb.withCursor (Pair.both 0) with lastFlush := rfl }

/-- SETUP on a live block, if it is answered, is two broadcasts of black between its register writes. -/
theorem exec_setup_broadcasts (hl : s.Live) (ha : s.Answered 2) : ∃ st0 st1 s1 s2,
    exec .setup s = .next ((setupTimers s2).withResult .none) ∧
      Broadcast .left Color.black st0 (setupRegisters s) s1 ∧ Broadcast .right Color.black st1 s1 s2 := by
  have hok : configOk s.cfg = true := hl.1
  obtain ⟨st0, s1, hleft, hs1⟩ := updateAllLeds_returns (s := setupRegisters s) hok
    (State.Answered.mono ha (by decide : 1 ≤ 2)) .left Color.black
  have hcfg1 : s1.cfg = s.cfg := hs1.block.cfg
  obtain ⟨st1, s2, hright, hs2⟩ := updateAllLeds_returns (hcfg1 ▸ hok) (ha.drop_one hs1.turns) .right Color.black
  refine ⟨st0, st1, s1, s2, ?_, hs1, hs2⟩
  change execSetup s = _
  rw [execSetup, whenLive_of_live hl, setupBlock, hleft, BusRun.returned_andThen, hright]
  rfl

/-- Everything an answered SETUP leaves: the block, the history, and each hand's peripheral after its own broadcast. -/
theorem exec_setup_answered (hl : s.Live) (ha : s.Answered 2) : ∃ t st0 st1, exec .setup s = .next t ∧
    SameBlock s.setUp t ∧ t.result = .none ∧
    (∀ f, s.forcedStatus 0 = some f → st0 = f) ∧ (∀ f, s.forcedStatus 1 = some f → st1 = f) ∧
    (s.Unscripted → ∀ h, t.periph.get h =
      ((s.periph.get h).takeWrite s.cfg (devAddr s.cfg h) (broadcastBytes s.cfg Color.black)).2) ∧
    t.busLog = s.busLog ++ [.write (devAddr s.cfg .left) (broadcastBytes s.cfg Color.black) st0,
      .write (devAddr s.cfg .right) (broadcastBytes s.cfg Color.black) st1] := by
  obtain ⟨st0, st1, s1, s2, hexec, hs1, hs2⟩ := exec_setup_broadcasts hl ha
  have hcfg1 : s1.cfg = s.cfg := hs1.block.cfg
  refine ⟨_, st0, st1, hexec, ?_, rfl, hs1.forced, fun f hf => hs2.forced f ?_, fun hu h => ?_, ?_⟩
  · exact ((hs1.block.fillLeds .right Color.black).trans hs2.block).setupTimers.withResult .none
  · rw [forcedStatus_drop_one hs1.turns]
    exact hf
  · have hturns : s.turns = [] := hu
    have hu1 : s1.Unscripted := hs1.turns.trans (congrArg (List.drop 1) hturns)
    change s2.periph.get h = _
    rw [hs2.periph hu1, hs1.periph hu, hcfg1]
    cases h <;> rfl
  · change s2.busLog = _
    rw [hs2.busLog, hs1.busLog, hcfg1, List.append_assoc]
    rfl

/-! ## SETKSI (43_system_ops.md R191) -/

theorem exec_setksi_of_sent {v st0 st1 : Byte} {s1 s2 : State} (hr : s.Ready)
    (hleft : writeKeyscanInterval .left v s = .returned st0 s1)
    (hright : writeKeyscanInterval .right v s1 = .returned st1 s2) :
    exec (.setksi v) s = .next (s2.withResult (.statusPair st0 st1)) := by
  change execSetksi v s = _
  rw [execSetksi, whenAdmitted_of_ready hr, hleft, BusRun.returned_andThen, hright, BusRun.returned_andThen,
    finish_returned]

end

end Sys2Proof.Machine
end

section
/-! # The statements of 43_system_ops.md -/

namespace Sys2Proof.Machine

/-- Settles O15: an admitted operation answers a next state, and each way of not being admitted is refused. -/
theorem operationsAreRefusedExactlyWhenNotAdmitted : Obligations.OperationsAreRefusedExactlyWhenNotAdmitted :=
  fun i s hop hc hhung => by
    constructor
    · rintro ⟨r, hrefused⟩ ⟨hhalted, hadmit⟩
      obtain ⟨t, hexec⟩ := exec_of_admitted hop ⟨hc, hhung, hhalted⟩ hadmit
      cases hrefused.symm.trans hexec
    · intro hnot
      cases hhalted : s.halted with
      | true => exact ⟨_, exec_of_halted i hc hhung hhalted⟩
      | false =>
        obtain ⟨hsetup, hinit⟩ := not_or.mp fun hadmit => hnot ⟨hhalted, hadmit⟩
        exact ⟨_, exec_of_uninitialised hsetup ⟨hc, hhung, hhalted⟩ (Bool.eq_false_iff.mpr hinit)⟩

/-- Settles O27: the two answered broadcasts, in whose block every register is the one that SETUP has written. -/
theorem setupEstablishesTheResetTable : Obligations.SetupEstablishesTheResetTable := fun s hl ha => by
  obtain ⟨t, st0, st1, hexec, hblock, hresult, hforced0, hforced1, hperiph, hlog⟩ := exec_setup_answered hl ha
  obtain ⟨hok, hhung, hhalted⟩ := hl
  rw [broadcastBytes_black] at hlog
  refine ⟨t, st0, st1, hexec, hblock.currScan, hblock.prevScan, hblock.evPos, fun h i => ?_, hblock.dirty,
    hblock.cursor, hblock.lastFlush, hblock.initialized, hblock.halted.trans hhalted, hblock.powerEn,
    hblock.hung.trans hhung, hresult, hblock.cfg, hblock.msNow, hblock.overcurrent, hblock.inbox, hforced0, hforced1,
    fun hu h => ?_, hlog⟩
  · rw [hblock.fb]
    exact setUp_fb s h i
  · have hshown := takeWrite_broadcast hok h Color.black (s.periph.get h)
    rw [quantise_black] at hshown
    rw [hperiph hu h]
    exact hshown

/-- Settles O28: the two answered writes, the second whatever the first's status. -/
theorem keyboardIntervalIsForwardedToBothHands : Obligations.KeyboardIntervalIsForwardedToBothHands :=
  fun s v hr ha => by
    obtain ⟨st0, s1, hleft, hs1, hforced0⟩ := busWrite_returns_forced (devAddr s.cfg .left)
      (keyscanIntervalFrame s.cfg v) (ha.mono (by decide : 1 ≤ 2))
    obtain ⟨st1, s2, hright, hs2, hforced1⟩ := busWrite_returns_forced (devAddr s1.cfg .right)
      (keyscanIntervalFrame s1.cfg v) (ha.drop_one hs1.turns)
    have hcfg1 : s1.cfg = s.cfg := hs1.block.cfg
    refine ⟨_, st0, st1, exec_setksi_of_sent hr hleft hright, rfl, (hs1.block.trans hs2.block).withResult _, hforced0,
      fun f hf => hforced1 f ?_, ?_⟩
    · rw [forcedStatus_drop_one hs1.turns]
      exact hf
    · rw [State.withResult_busLog, hs2.busLog, hs1.busLog, hcfg1, List.append_assoc]
      rfl

/-- Settles O29: admitted, its meaning is that next state. -/
theorem powerFaultQueryReturnsTheInput : Obligations.PowerFaultQueryReturnsTheInput := fun _ hr =>
  whenAdmitted_of_ready hr _

/-- Settles O30: REBOOT writes the bit and the result, and a block with the bit set refuses everything. -/
theorem rebootHaltsTheBlock : Obligations.RebootHaltsTheBlock := fun s hr => by
  have ⟨⟨hok, hhung, _⟩, _⟩ := hr
  exact ⟨_, whenAdmitted_of_ready hr _, rfl, fun i => exec_of_halted i hok hhung rfl⟩

end Sys2Proof.Machine
end

section
/-! # Transactions that hang

What an operation leaves when its first or its second transaction never returns (60_exceptions.md R215): the parts of the
operations up to the transaction that hangs, exactly, and then the stuck block, which refuses everything. -/

namespace Sys2Proof.Machine

section
variable {s : State} {h : Hand} {n : BitVec 2} {ts : List Turn}

/-! ## A stuck block admits nothing -/

theorem whenLive_of_hung (hc : configOk s.cfg = true) (hhung : s.hung = true)
    (run : Host.Outcome State Fault Refusal) : whenLive s run = .refused .blockStuck := by
  rw [whenLive, whenConfigured_of_ok hc, if_pos hhung]

/-- A stuck block refuses every instruction, the bare frames and replies too (assumption log 9). -/
theorem exec_of_hung (i : Instr) (hc : configOk s.cfg = true) (hhung : s.hung = true) :
    exec i s = .refused .blockStuck := by
  obtain ⟨run, hrun⟩ := exec_eq_whenLive i s
  rw [hrun, whenLive_of_hung hc hhung]

/-! ## A write that the environment answers itself, exactly -/

/-- A status of the environment's own enters the history and changes nothing but the turns still to come (assumption
log 31). -/
theorem busWrite_answered {f : Byte} {bs : List Byte} (hturns : s.turns = ⟨none, none, .forced f bs⟩ :: ts)
    (dev : BitVec 7) (bytes : List Byte) :
    busWrite dev bytes s = .returned f ((s.withTurns ts).logged (.write dev bytes f)) := by
  simp only [busWrite, takeTurn, hturns]
  rfl

/-! ## The end of an operation whose run has hung -/

section
variable {α : Type} {t : State} {run : BusRun α}

/-- Nothing later happens, and the end of the operation is the stuck block. -/
theorem finish_of_hung (hrun : run = .hung (t.withTurns ts)) (k : α → State → BusRun Result) :
    finish (run.andThen k) = .next (t.stuckBefore ts) := by
  rw [hrun, BusRun.hung_andThen, finish_hung, stuck_withTurns]

/-- An admitted operation whose first part hangs ends stuck, in the state that part has come to. -/
theorem whenAdmitted_of_hung (hr : s.Ready) (hrun : run = .hung (t.withTurns ts)) (k : α → State → BusRun Result) :
    whenAdmitted s (finish (run.andThen k)) = .next (t.stuckBefore ts) := by
  rw [whenAdmitted_of_ready hr, finish_of_hung hrun]

end

/-! ## The parts of the operations at a transaction that hangs -/

section
variable (hturns : s.turns = ⟨none, none, .hang⟩ :: ts)
include hturns

theorem readKeys_hang (h : Hand) : readKeys h s = .hung (s.withTurns ts) := by
  rw [readKeys, busRead_hang _ _ hturns, BusRun.hung_andThen]

theorem readRegister_hang (h : Hand) (sel : Byte) : readRegister h sel s = .hung (s.withTurns ts) := by
  rw [readRegister, busWrite_hang _ _ hturns, BusRun.hung_andThen]

theorem updateLed_hang (h : Hand) (i : BitVec 5) (c : Color) :
    updateLed h i c s = .hung (s.withTurns ts) := by
  rw [updateLed, busWrite_hang _ _ hturns, BusRun.hung_andThen]

theorem updateAllLeds_hang (h : Hand) (c : Color) : updateAllLeds h c s = .hung (s.withTurns ts) := by
  rw [updateAllLeds, busWrite_hang _ _ hturns, BusRun.hung_andThen]

/-- A flush step of a dirty bank hangs with the cursor advanced and the bank still dirty (42_led_sync.md R162). -/
theorem updateNextLedBank_hang (hn : n = s.cursor.get h + 1) (hdirty : isDirty (s.dirty.get h) n = true) :
    updateNextLedBank h s = .hung ((advanceCursor h s).withTurns ts) := by
  rw [updateNextLedBank_of_dirty hn hdirty, busWrite_hang _ _ (s := advanceCursor h s) hturns, BusRun.hung_andThen]

/-! ## The first transaction hangs -/

theorem exec_setup_firstHang (hl : s.Live) : exec .setup s = .next ((setupRegisters s).stuckBefore ts) := by
  change whenLive s _ = _
  rw [whenLive_of_live hl, setupBlock, updateAllLeds_hang (s := setupRegisters s) hturns]
  rfl

theorem exec_scanm_firstHang (hr : s.Ready) :
    exec .scanm s = .next ((s.withPrevScan s.currScan).stuckBefore ts) := by
  refine whenAdmitted_of_hung hr ?_ _
  rw [scanMatrix, readKeys_hang (s := s.withPrevScan s.currScan) hturns, BusRun.hung_andThen]

theorem exec_sUpdbank_hang (hr : s.Ready) (hdirty : isDirty (s.dirty.get h) (s.cursor.get h + 1) = true) :
    exec (.sUpdbank h) s = .next ((advanceCursor h s).stuckBefore ts) :=
  whenAdmitted_of_hung hr (updateNextLedBank_hang hturns rfl hdirty) _

/-- The operations that write nothing before their first transaction. -/
theorem exec_operation_firstHang (hr : s.Ready) (h : Hand) (v : Byte) (c : Color) (i : BitVec 5) :
    ∀ op ∈ [Instr.setksi v, .sRdkeys h, .sUpdled h (i.setWidth 8) c, .sUpdall h c, .sSetksi h v, .sSetspi h v,
      .sRdver h, .sRdksi h, .sRdspi h], exec op s = .next (s.stuckBefore ts) := by
  have hone : exec (.sUpdled h (i.setWidth 8) c) s = .next (s.stuckBefore ts) := by
    change execSUpdled h (i.setWidth 8) c s = _
    rw [execSUpdled, indexOperand_setWidth]
    exact whenAdmitted_of_hung hr (updateLed_hang hturns h i c) _
  have hwrite (bytes : List Byte) : busWrite (devAddr s.cfg h) bytes s = .hung (s.withTurns ts) :=
    busWrite_hang _ _ hturns
  have hselect (sel : Byte) : readRegister h sel s = .hung (s.withTurns ts) := readRegister_hang hturns h sel
  simp only [List.forall_mem_cons, List.not_mem_nil, false_imp_iff, implies_true, and_true]
  exact ⟨whenAdmitted_of_hung hr (busWrite_hang _ _ hturns) _, whenAdmitted_of_hung hr (readKeys_hang hturns h) _,
    hone, whenAdmitted_of_hung hr (updateAllLeds_hang hturns h c) _, whenAdmitted_of_hung hr (hwrite _) _,
    whenAdmitted_of_hung hr (hwrite _) _, whenAdmitted_of_hung hr (hselect _) _,
    whenAdmitted_of_hung hr (hselect _) _, whenAdmitted_of_hung hr (hselect _) _⟩

/-- A well-formed bare frame to a hand is its one transaction (assumption log 9). -/
theorem exec_frame_hang {i : Instr} {bytes : List Byte} (hr : s.Ready)
    (hi : encode s.cfg i = .busWrite (devAddr s.cfg h) bytes)
    (hindex : ∀ index w, i = .ledSetOne (devAddr s.cfg h) index w → indexByteOk index = true) :
    exec i s = .next (s.stuckBefore ts) := by
  rw [exec_of_frame hi, whenIssued_of_wellFormed hr (wellFormed_of_frame hi (deviceOk_devAddr _ _) hindex)]
  exact finish_of_hung (busWrite_hang _ _ hturns) _

/-- The eight bare frames. -/
theorem exec_frames_hang (hr : s.Ready) (h : Hand) (v : Byte) (i : BitVec 5) (w : Bgr) (n : BitVec 2)
    (ws : Vector Bgr 8) :
    ∀ op ∈ [Instr.ledSetOne (devAddr s.cfg h) (i.setWidth 8) w, .ledSetAll (devAddr s.cfg h) w,
      .ledBank (devAddr s.cfg h) n ws, .keyscanInterval (devAddr s.cfg h) v, .ledSpiFrequency (devAddr s.cfg h) v,
      .regselVersion (devAddr s.cfg h), .regselKsi (devAddr s.cfg h), .regselSpi (devAddr s.cfg h)],
      exec op s = .next (s.stuckBefore ts) := by
  have hone : exec (.ledSetOne (devAddr s.cfg h) (i.setWidth 8) w) s = .next (s.stuckBefore ts) :=
    exec_frame_hang hturns hr rfl fun _ _ heq => by
      cases heq
      exact indexByteOk_setWidth i
  simp only [List.forall_mem_cons, List.not_mem_nil, false_imp_iff, implies_true, and_true]
  refine ⟨hone, ?_, ?_, ?_, ?_, ?_, ?_, ?_⟩
  all_goals exact exec_frame_hang hturns hr rfl nofun

end

/-! ## The second transaction hangs -/

section
variable {f : Byte} {bs : List Byte}

/-- A broadcast that the environment answers fills the hand's frame buffer whatever the status. -/
theorem updateAllLeds_answered (hturns : s.turns = ⟨none, none, .forced f bs⟩ :: ts) (h : Hand) (c : Color) :
    updateAllLeds h c s = .returned f (fillLeds h c
      ((s.withTurns ts).logged (.write (devAddr s.cfg h) (broadcastBytes s.cfg c) f))) := by
  rw [updateAllLeds, busWrite_answered hturns, BusRun.returned_andThen]
  rfl

/-- SETUP with its right broadcast hung: the left hand's frame buffer is black and clean (43_system_ops.md R190). -/
theorem exec_setup_secondHang (hl : s.Live)
    (hturns : s.turns = ⟨none, none, .forced f bs⟩ :: ⟨none, none, .hang⟩ :: ts) :
    exec .setup s = .next ((fillLeds .left Color.black ((setupRegisters s).logged
      (.write (devAddr s.cfg .left) (broadcastBytes s.cfg Color.black) f))).stuckBefore ts) := by
  change whenLive s _ = _
  rw [whenLive_of_live hl, setupBlock, updateAllLeds_answered (s := setupRegisters s) hturns, BusRun.returned_andThen,
    updateAllLeds_hang rfl]
  rfl

/-- SCANM with its right read hung: the snapshots saved, the left one replaced by what the left reply delivered, the
iterator where it was (41_key_scan_edge.md R140). -/
theorem exec_scanm_secondHang (hr : s.Ready)
    (hturns : s.turns = ⟨none, none, .forced f bs⟩ :: ⟨none, none, .hang⟩ :: ts) :
    ∃ t r, exec .scanm s = .next t ∧ t.hung = true ∧ t.result = .none ∧ t.prevScan = s.currScan ∧
      t.currScan = ⟨(keyDataOf s.cfg r).getD s.currScan.left, s.currScan.right⟩ ∧ t.evPos = s.evPos ∧
      t.busLog = s.busLog ++ [.read (devAddr s.cfg .left) 5 r] := by
  obtain ⟨s1, hread, hs1⟩ := busRead_forced (s := s.withPrevScan s.currScan) hturns (devAddr s.cfg .left) 5
  generalize (forcedRead _ _ _ _).1 = r at hread hs1
  have hleft : readKeys .left (s.withPrevScan s.currScan) = .returned (keyDataOf s.cfg r) s1 := by
    rw [readKeys, State.withPrevScan_cfg, hread, BusRun.returned_andThen]
  have hrest : (storeScan .left (keyDataOf s.cfg r) s1).turns = ⟨none, none, .hang⟩ :: ts := by
    rw [storeScan_turns, hs1.turns, State.withPrevScan_turns, hturns, List.drop_one, List.tail_cons]
  have hcurr : s1.currScan = s.currScan := hs1.block.currScan
  refine ⟨(storeScan .left (keyDataOf s.cfg r) s1).stuckBefore ts, r, whenAdmitted_of_hung hr ?_ _, rfl, rfl, ?_⟩
  · rw [scanMatrix, hleft, BusRun.returned_andThen, readKeys_hang hrest, BusRun.hung_andThen]
  · rw [storeScan_eq, hcurr]
    exact ⟨hs1.block.prevScan, rfl, hs1.block.evPos, hs1.busLog⟩

/-- SETKSI with its right write hung (43_system_ops.md R191). -/
theorem exec_setksi_secondHang (hr : s.Ready)
    (hturns : s.turns = ⟨none, none, .forced f bs⟩ :: ⟨none, none, .hang⟩ :: ts) (v : Byte) :
    exec (.setksi v) s = .next
      ((s.logged (.write (devAddr s.cfg .left) (keyscanIntervalFrame s.cfg v) f)).stuckBefore ts) := by
  change whenAdmitted s (finish ((busWrite _ _ s).andThen _)) = _
  rw [busWrite_answered hturns, BusRun.returned_andThen, whenAdmitted_of_ready hr]
  exact finish_of_hung (busWrite_hang _ _ rfl) _

/-- A register read whose select succeeded, with its read hung (40_bus_transceiver.md R123). -/
theorem readRegister_secondHang (hturns : s.turns = ⟨none, none, .forced 0 bs⟩ :: ⟨none, none, .hang⟩ :: ts)
    (h : Hand) (sel : Byte) :
    readRegister h sel s = .hung ((s.logged (.write (devAddr s.cfg h) [sel] 0)).withTurns ts) := by
  rw [readRegister_of_selected (busWrite_answered hturns _ _), busRead_hang _ _ rfl]
  rfl

/-- The three register reads. -/
theorem exec_registerReads_secondHang (hr : s.Ready)
    (hturns : s.turns = ⟨none, none, .forced 0 bs⟩ :: ⟨none, none, .hang⟩ :: ts) (h : Hand) :
    ∀ x ∈ [(Instr.sRdver h, s.cfg.cmdVersion), (.sRdksi h, s.cfg.cmdKeyscanInterval),
        (.sRdspi h, s.cfg.cmdLedSpiFrequency)],
      exec x.1 s = .next ((s.logged (.write (devAddr s.cfg h) [x.2] 0)).stuckBefore ts) := by
  simp only [List.forall_mem_cons, List.not_mem_nil, false_imp_iff, implies_true, and_true]
  exact ⟨whenAdmitted_of_hung hr (readRegister_secondHang hturns h _) _,
    whenAdmitted_of_hung hr (readRegister_secondHang hturns h _) _,
    whenAdmitted_of_hung hr (readRegister_secondHang hturns h _) _⟩

/-- A flush step of a dirty bank that the environment answers sends the bank and cleans it whatever the status. -/
theorem updateNextLedBank_answered (hturns : s.turns = ⟨none, none, .forced f bs⟩ :: ts) (hn : n = s.cursor.get h + 1)
    (hdirty : isDirty (s.dirty.get h) n = true) :
    updateNextLedBank h s = .returned () (cleanBank h n (((advanceCursor h s).withTurns ts).logged
      (.write (devAddr s.cfg h) (bankFrameNow h n s) f))) := by
  rw [updateNextLedBank_of_dirty hn hdirty, busWrite_answered (s := advanceCursor h s) hturns, BusRun.returned_andThen]

end

/-! ## A fired UPDLEDS (42_led_sync.md R167) -/

/-- A call of UPDLEDS now takes this time sample and fires. -/
def State.FlushesAt (s : State) (now : Nat) : Prop :=
  now = timeSample s.cfg s.msNow ∧ flushDue s.cfg now s.lastFlush = true

section
variable {now : Nat}

/-- The call fires when the difference of R167, taken from a time stamp in range, reaches the interval. -/
theorem flushesAt_of_elapsed (hnow : now = s.msNow % 2 ^ s.cfg.timerBits) (hlast : s.lastFlush < 2 ^ s.cfg.timerBits)
    (helapsed : s.cfg.ledFlushIntervalMs ≤ (now + 2 ^ s.cfg.timerBits - s.lastFlush) % 2 ^ s.cfg.timerBits) :
    s.FlushesAt now :=
  ⟨hnow, flushDue_eq_true.mpr (by rwa [elapsedMs_of_lt hlast])⟩

/-- A fired UPDLEDS is a flush step of each hand after the time stamp. -/
theorem updateLeds_of_due (hdue : s.FlushesAt now) :
    updateLeds s = (updateNextLedBank .left (s.withLastFlush now)).andThen fun _ s1 => updateNextLedBank .right s1 := by
  obtain ⟨rfl, hdue⟩ := hdue
  rw [updateLeds, if_pos hdue]

/-- UPDLEDS ends stuck where its flush steps hang. -/
theorem exec_updleds_of_hung {t : State} (hr : s.Ready) (hdue : s.FlushesAt now)
    (hrun : ((updateNextLedBank .left (s.withLastFlush now)).andThen fun _ s1 => updateNextLedBank .right s1) =
      .hung (t.withTurns ts)) : exec .updleds s = .next (t.stuckBefore ts) :=
  whenAdmitted_of_hung hr ((updateLeds_of_due hdue).trans hrun) _

/-- The left hand's flush step hangs. -/
theorem exec_updleds_leftHang (hr : s.Ready) (hdue : s.FlushesAt now)
    (hturns : s.turns = ⟨none, none, .hang⟩ :: ts) (hleft : isDirty s.dirty.left (s.cursor.left + 1) = true) :
    exec .updleds s = .next
      (((s.withLastFlush now).withCursor ⟨s.cursor.left + 1, s.cursor.right⟩).stuckBefore ts) := by
  refine exec_updleds_of_hung hr hdue ?_
  rw [updateNextLedBank_hang (s := s.withLastFlush now) (h := .left) hturns rfl hleft, BusRun.hung_andThen]
  rfl

/-- The left hand's selected bank is clean, so nothing is sent for it, and the right hand's flush step hangs. -/
theorem exec_updleds_rightHang (hr : s.Ready) (hdue : s.FlushesAt now)
    (hturns : s.turns = ⟨none, none, .hang⟩ :: ts) (hleft : isDirty s.dirty.left (s.cursor.left + 1) = false)
    (hright : isDirty s.dirty.right (s.cursor.right + 1) = true) :
    exec .updleds s = .next
      (((s.withLastFlush now).withCursor ⟨s.cursor.left + 1, s.cursor.right + 1⟩).stuckBefore ts) := by
  refine exec_updleds_of_hung hr hdue ?_
  rw [updateNextLedBank_of_clean (s := s.withLastFlush now) (h := .left) rfl hleft, BusRun.returned_andThen,
    updateNextLedBank_hang (s := advanceCursor .left (s.withLastFlush now)) (h := .right) hturns rfl hright]
  rfl

/-- The left hand's bank is sent and clean, and the right hand's flush step hangs. -/
theorem exec_updleds_secondHang {f : Byte} {bs : List Byte} (hr : s.Ready) (hdue : s.FlushesAt now)
    (hturns : s.turns = ⟨none, none, .forced f bs⟩ :: ⟨none, none, .hang⟩ :: ts)
    (hleft : isDirty s.dirty.left (s.cursor.left + 1) = true)
    (hright : isDirty s.dirty.right (s.cursor.right + 1) = true) :
    exec .updleds s = .next (((((s.withLastFlush now).withCursor
      ⟨s.cursor.left + 1, s.cursor.right + 1⟩).withDirty
        ⟨markClean s.dirty.left (s.cursor.left + 1), s.dirty.right⟩).logged
          (.write (devAddr s.cfg .left) (bankFrameNow .left (s.cursor.left + 1) s) f)).stuckBefore ts) := by
  refine exec_updleds_of_hung hr hdue ?_
  rw [updateNextLedBank_answered (s := s.withLastFlush now) (h := .left) hturns rfl hleft, BusRun.returned_andThen]
  exact updateNextLedBank_hang (h := .right) rfl rfl hright

end

end

end Sys2Proof.Machine
end

section
/-! # The statements of 60_exceptions.md -/

namespace Sys2Proof.Machine

/-- Settles O16: every instruction begins with the admission that SETUP has, which looks at both bits. -/
theorem stuckOrHaltedBlockAdmitsNothing : Obligations.StuckOrHaltedBlockAdmitsNothing := fun i _ hc =>
  ⟨exec_of_hung i hc, exec_of_halted i hc⟩

/-- Settles O17: what a step without input does is decided by the two bits alone. -/
theorem stuckOrHaltedBlockMakesNoStep : Obligations.StuckOrHaltedBlockMakesNoStep := fun s hc hin => by
  rw [step_of_empty hin, whenConfigured_of_ok hc]
  refine ⟨fun hhung => if_pos hhung, fun hhung hhalted => ?_, fun hhung hhalted => ?_⟩
  · rw [hhung, if_neg Bool.false_ne_true, if_pos hhalted]
  · rw [hhung, hhalted, if_neg Bool.false_ne_true, if_neg Bool.false_ne_true]

/-- Settles O47: an operand byte out of range is no address, and without one each operation ends at once. -/
theorem invalidAddressesAreRejected : Obligations.InvalidAddressesAreRejected := fun s h a c hr => by
  refine ⟨fun hindex => ?_, fun hkey => ?_⟩
  · change execSSetlc h a c s = _ ∧ execSGetlc h a s = _ ∧ execSUpdled h a c s = _
    rw [execSSetlc, execSGetlc, execSUpdled, indexOperand_none hindex]
    exact ⟨whenAdmitted_of_ready hr _, whenAdmitted_of_ready hr _, whenAdmitted_of_ready hr _⟩
  · change execSetkc a c s = _ ∧ execGetkc a s = _
    rw [execSetkc, execGetkc, keyOperand_none hkey]
    exact ⟨whenAdmitted_of_ready hr _, whenAdmitted_of_ready hr _⟩

/-- Settles O34: each operation's run, followed up to the transaction that hangs. -/
theorem hungTransactionsLeaveOperationsUnfinished : Obligations.HungTransactionsLeaveOperationsUnfinished := by
  rintro s _ h v c i w n ws ts hl rfl
  refine ⟨fun hturns => ⟨exec_setup_firstHang hturns hl, fun hinit => ?_⟩, fun f bs hturns => ⟨?_, fun hinit => ?_⟩⟩
  · have hr : s.Ready := ⟨hl, hinit⟩
    refine ⟨exec_scanm_firstHang hturns hr, exec_sUpdbank_hang hturns hr, fun now hnow hlast helapsed => ?_,
      List.forall_mem_append.mpr
        ⟨exec_operation_firstHang hturns hr h v c i, exec_frames_hang hturns hr h v i w n ws⟩⟩
    have hdue := flushesAt_of_elapsed hnow hlast helapsed
    exact ⟨exec_updleds_leftHang hr hdue hturns, exec_updleds_rightHang hr hdue hturns⟩
  · refine ⟨Vector.replicate 32 (quantise s.cfg Color.black), fun j => ?_, ?_⟩
    · rw [ledAt_replicate, quantise_black]
      rfl
    · rw [exec_setup_secondHang hl hturns, broadcastBytes_black]
      rfl
  · have hr : s.Ready := ⟨hl, hinit⟩
    refine ⟨exec_scanm_secondHang hr hturns, exec_setksi_secondHang hr hturns v, ?_,
      fun now hnow hlast helapsed hleft hright => ?_⟩
    · rintro rfl
      exact exec_registerReads_secondHang hr hturns h
    · exact ⟨_, fun m => isDirty_markClean _ _ m,
        exec_updleds_secondHang hr (flushesAt_of_elapsed hnow hlast helapsed) hturns hleft hright⟩

end Sys2Proof.Machine
end

section
/-! # A selection left behind

A read that meets a selected register gets the register's byte and filler, however many bytes it asks for, and spends the
selection (20_memory.md R66); a key read takes that byte for the tag (70_reset_and_hazards.md R252). -/

namespace Sys2Proof.Machine

/-! ## The peripheral -/

/-- Each of the three selections names its register's byte (20_memory.md R66). -/
theorem Periph.selectedByte_of_register {p : Periph} {v : Byte}
    (hsel : p.sel = .version ∧ v = p.version ∨ p.sel = .keyscanInterval ∧ v = p.keyscanInterval ∨
      p.sel = .spiFreq ∧ v = p.spiFreq) : p.selectedByte = some v := by
  obtain ⟨hsel, rfl⟩ | ⟨hsel, rfl⟩ | ⟨hsel, rfl⟩ := hsel <;> rw [Periph.selectedByte, hsel]

theorem takeRead_spendsSelection (cfg : Config) (n : Nat) {p : Periph} {v : Byte} (hf : p.fail = false)
    (hv : p.selectedByte = some v) :
    p.takeRead cfg n = (.ok (v :: List.replicate (n - 1) 0xFF), { p with sel := .none }) := by
  rw [Periph.takeRead, hf, if_neg Bool.false_ne_true, hv]

/-! ## The bus and the reply -/

/-- A read from a healthy hand with a selected register, on the bus. -/
theorem busRead_spendsSelection {s : State} {h : Hand} {v : Byte} (hc : configOk s.cfg = true) (hu : s.Unscripted)
    (hf : (s.periph.get h).fail = false) (hv : (s.periph.get h).selectedByte = some v) (n : Nat) :
    busRead (devAddr s.cfg h) n s = .returned (.ok (v :: List.replicate (n - 1) 0xFF))
      ((s.withPeripheral h { s.periph.get h with sel := .none }).logged
        (.read (devAddr s.cfg h) n (.ok (v :: List.replicate (n - 1) 0xFF)))) := by
  rw [busRead_unscripted hu, respondRead_devAddr hc, takeRead_spendsSelection _ _ hf hv, readReturned]

/-- A register's byte and filler, read as key data: rejected by the tag, or every key pressed. -/
theorem keyDataOf_registerReply (cfg : Config) (v : Byte) :
    keyDataOf cfg (.ok (v :: List.replicate 4 0xFF)) = if v = cfg.replyKeydata then some 0xFFFFFFFF else none := by
  split
  · next htag =>
    subst htag
    exact keyDataOf_tagged cfg 0xFF 0xFF 0xFF 0xFF
  · next htag => exact keyDataOf_wrongTag htag 0xFF 0xFF 0xFF 0xFF

end Sys2Proof.Machine
end

section
/-! # The statements of 70_reset_and_hazards.md -/

namespace Sys2Proof.Machine

/-- Settles O18: the watchdog leaves the block live and uninitialised, and such a block refuses everything but SETUP. -/
theorem watchdogRestartsTheBlock : Obligations.WatchdogRestartsTheBlock := fun s rest hc hin => by
  have hlive : (s.withInbox rest).watchdogReset.Live := ⟨hc, rfl, rfl⟩
  exact ⟨_, step_takes_input hc hin (by simp), rfl, rfl, rfl, rfl, rfl, rfl, rfl, rfl,
    fun _ hi => exec_of_uninitialised hi hlive rfl⟩

/-- Settles O43: the key read gets the selected register's byte and filler, and reads the byte as the tag. -/
theorem selectedRegisterSpoilsTheNextKeyRead : Obligations.SelectedRegisterSpoilsTheNextKeyRead := by
  rintro s h v _ hr hu rfl hf hsel
  have hread := busRead_spendsSelection hr.1.1 hu hf (Periph.selectedByte_of_register hsel) 5
  exact ⟨_, exec_sRdkeys_of_reply hr hread, rfl, by constructor <;> rfl,
    congrArg Result.optScan (keyDataOf_registerReply s.cfg v)⟩

end Sys2Proof.Machine
end
